-- ==== Sys2Proof/Word.lean ====
section
/-! DEFINITION. The samples and blocks of the manual (00, Conventions) and their plainest arithmetic. -/

namespace Sys2Proof

/-- An audio sample: a signed integer (00, Conventions). -/
abbrev Sample := Int

/-- A block of 48 samples in time order. A sample past the end of a shorter list reads as 0. -/
abbrev Block := List Sample

/-- The samples of a block (00, Principal figures). -/
def blockLength : Nat := 48

/-- 48 zeros. -/
def zeroBlock : Block := List.replicate 48 0

/-- Sample `n` of a block. -/
def Block.at (b : Block) (n : Nat) : Sample := b.getD n 0

end Sys2Proof
end

