-- ==== Sys2Proof/Config.lean ====
section
/-! DEFINITION. What is fixed for the machine: the capacities of the manual (00, Principal figures), and the configuration
block's settings (R202, R212) as the stored block carries them. No result of this block is an undefined value, so there is
no free value here. -/

namespace Sys2Proof

/-- Places of the outbound message queue (R16). -/
def queuePlaces : Nat := 16
/-- Places that messages outside the reply class may fill (R16). -/
def openPlaces : Nat := 12
/-- Entries of the event queue (R199). -/
def eventPlaces : Nat := 32
/-- Places of a deferred list (R88). -/
def deferredPlaces : Nat := 8
/-- Places of an admitted set (R87). -/
def admittedPlaces : Nat := 6
/-- Entries of the outstanding request queue (R61, R65). -/
def outstandingPlaces : Nat := 6
/-- Items an answer list keeps (R67). -/
def answerPlaces : Nat := 16
/-- Samples of a playout buffer (R144). -/
def playoutPlaces : Nat := 96

/-- The station-wide settings, in the order of R212. -/
structure StationCfg where
  deferLimit : Nat
  tapLimit : Nat
  /-- 0 off, 1 on -/
  fieldEnable : Nat
  targetFill : Nat
  published : Nat
  /-- 0–3 name F0–F3, 4 is NONE -/
  homeFeed : Nat
deriving DecidableEq, Repr

/-- The voice detector settings of one of S0–S3. -/
structure SourceCfg where
  vox : Nat
  threshold : Nat
  hang : Nat
deriving DecidableEq, Repr

/-- The open-talk settings of S2 or S3: the destination count and the four destination bytes as carried. -/
structure OpenTalkCfg where
  count : Nat
  destBytes : List Nat
  level : Nat
  memo : Bool
deriving DecidableEq, Repr

/-- The settings of one key as carried (R42, R212). -/
structure KeyCfg where
  /-- 0 PIN-EDGE, 1 PIN-LEVEL, 2 PORT -/
  kind : Nat
  /-- 0 MOMENTARY, 1 LATCHING, 2 AUTO -/
  mode : Nat
  /-- 0 NONE, 1 TALK, 2 CALL, 3 REPLY -/
  fn : Nat
  source : Nat
  level : Nat
  count : Nat
  destBytes : List Nat
  memo : Bool
  /-- 0 ATTENTION, 1 URGENT -/
  callKind : Nat
  replyFeed : Nat
deriving DecidableEq, Repr

/-- The settings of one feed as carried (R81, R146, R165, R212). -/
structure FeedCfg where
  /-- 0 NONE, 1 EARPIECE, 2 SPEAKER, 3 RETURN -/
  type : Nat
  count : Nat
  destBytes : List Nat
  home : Bool
  allCall : Bool
  floor : Nat
  onAirFloor : Nat
  /-- dim codes for levels 1–6 -/
  dims : List Nat
  /-- 0 NONE, 1–8 PROG p, 15 LOCAL -/
  programme : Nat
  progGain : Nat
  talkGain : Nat
  toneGain : Nat
  ramp : Nat
  /-- 0 none, 1 S0, 2 S1 -/
  dimSource : Nat
  talkDim : Nat
  callFreq : Nat
  cueFreq : Nat
  lead : Nat
deriving DecidableEq, Repr

/-- The settings of one memo channel. -/
structure MemoCfg where
  capacity : Nat
  chain : Bool
deriving DecidableEq, Repr

/-- The stored configuration block (R202). -/
structure Configuration where
  station : StationCfg
  /-- S0–S3 -/
  sources : List SourceCfg
  /-- S2, S3 -/
  openTalk : List OpenTalkCfg
  /-- K0–K11 -/
  keys : List KeyCfg
  /-- F0–F5 -/
  feeds : List FeedCfg
  /-- M0–M3 -/
  memos : List MemoCfg
deriving DecidableEq, Repr

/-- A destination list uses the first entries of its bytes up to its count (R212). -/
def OpenTalkCfg.dests (c : OpenTalkCfg) : List Nat := c.destBytes.take c.count
/-- A destination list uses the first entries of its bytes up to its count (R212). -/
def KeyCfg.dests (c : KeyCfg) : List Nat := c.destBytes.take c.count
/-- A destination list uses the first entries of its bytes up to its count (R212). -/
def FeedCfg.dests (c : FeedCfg) : List Nat := c.destBytes.take c.count

/-- What a setting reads as where no configuration is stored: nothing in use. -/
def StationCfg.absent : StationCfg := ⟨0, 0, 0, 0, 0, 4⟩
/-- See `StationCfg.absent`. -/
def SourceCfg.absent : SourceCfg := ⟨0, 0, 0⟩
/-- See `StationCfg.absent`. -/
def OpenTalkCfg.absent : OpenTalkCfg := ⟨0, [], 0, false⟩
/-- See `StationCfg.absent`. -/
def KeyCfg.absent : KeyCfg := ⟨0, 0, 0, 0, 0, 0, [], false, 0, 0⟩
/-- See `StationCfg.absent`. -/
def FeedCfg.absent : FeedCfg := ⟨0, 0, [], false, false, 0, 0, [], 0, 0, 0, 0, 0, 0, 0, 0, 0, 0⟩
/-- See `StationCfg.absent`. -/
def MemoCfg.absent : MemoCfg := ⟨0, false⟩
/-- See `StationCfg.absent`. -/
def Configuration.absent : Configuration := ⟨StationCfg.absent, [], [], [], [], []⟩

end Sys2Proof
end

