-- ==== Sys2Proof/Syntax.lean ====
section
/-! DEFINITION. The commands of the block: one constructor of `Instr` for each row of spec/opcode_table.json, with the operands
the outside hands over. Numbers are the codes of the formats chapter (R203–R212). -/

namespace Sys2Proof

/-- A key's level (R42). -/
inductive KeyLevel
  | up | down
deriving DecidableEq, Repr

/-- The body of a TALK-OPEN (R205). -/
structure TalkOpen where
  source : Nat
  tag : Nat
  serial : Nat
  level : Nat
  memo : Bool
  reannounce : Bool
  lane : Nat
  dests : List Nat
deriving DecidableEq, Repr

/-- One item of an ANSWER (R205): feed, matched destination, state code, reason code. -/
structure WireItem where
  feed : Nat
  dest : Nat
  state : Nat
  reason : Nat
deriving DecidableEq, Repr

/-- A message's kind and body (R205). The sender stands in the envelope. -/
inductive Message
  | presence (fresh : Bool) (stamp : Nat) (field : Bool) (programme : Nat)
  | laneClaim (lane source : Nat)
  | talkOpen (m : TalkOpen)
  | talkMove (source lane : Nat)
  | talkClose (source tag : Nat)
  | answer (talker tag serial : Nat) (items : List WireItem)
  | feedNotice (feed talker source state reason : Nat)
  | call (key kind : Nat) (dests : List Nat)
  | callAck (caller feed key : Nat)
  | tally (dest : Nat) (on : Bool)
  | cue (dest seconds mode : Nat)
deriving DecidableEq, Repr

/-- What the line interface finds of a heard message besides its body (R205, R206): whether the check matches, whether
read-back shows that the station itself sent it (R13), and the envelope's fields. -/
structure Envelope where
  good : Bool
  own : Bool
  urgencyCode : Nat
  sender : Nat
  kind : Nat
  bodyLength : Nat
deriving DecidableEq, Repr

/-- What the line interface finds of a heard mark: its check, whether read-back shows it is the station's own, and its
two fields (R204). -/
structure HeardMark where
  good : Bool
  own : Bool
  number : Nat
  org : Nat
deriving DecidableEq, Repr

/-- A lane slot (R204): header and samples. -/
structure Slot where
  holder : Nat
  source : Nat
  quiet : Bool
  programme : Nat
  samples : Block
deriving DecidableEq, Repr

/-- A field frame as received (R206, R207): the length in bytes, whether the check matches, and the fields. -/
structure FieldFrame where
  length : Nat
  good : Bool
  number : Nat
  flags : Nat
  samplesA : List Sample
  samplesB : List Sample
deriving DecidableEq, Repr

/-- The steps of an opening that the table lists apart. `cycleOpening` and `markReceived` name in `apart` the kinds that are
taken by their own command instead of inside (log 4). -/
inductive DueKind
  | debounce | presence | peer | lane | claim | retire | refresh | defer | onAir | callRepeat | callExpiry
  | cueTone | cueZero | tonePhase | hang | leaving | fieldLoss | runCount
deriving DecidableEq, Repr

/-- The commands. -/
inductive Instr
  /-- HARDWARE_RESET with the levels at the strap pins -/
  | hardwareReset (number org : Nat)
  /-- START with the bytes of its argument and the pin levels at its acceptance -/
  | start (block : List Nat) (pins : List KeyLevel)
  | stop
  /-- KEY-SET whose level byte is not 0: 1 is DOWN, any other byte is no level -/
  | keySetDown (key level : Nat)
  | keySetUp (key : Nat)
  | callAck (feed caller key : Nat)
  /-- TALLY-SET whose state byte is not 0: 1 is ON, any other byte is no state -/
  | tallySetOn (dest state : Nat)
  | tallySetOff (dest : Nat)
  | cueStart (dest seconds mode : Nat)
  | cueStop (dest : Nat)
  | memoDiscard (feed talker source : Nat)
  | queryLine (index : Nat)
  | queryPeer (index : Nat)
  | queryLane (index : Nat)
  | querySource (index : Nat)
  | queryKey (index : Nat)
  | queryPath (index : Nat)
  | queryFeed (index : Nat)
  | queryMemo (index : Nat)
  | queryField (index : Nat)
  | queryCue (index : Nat)
  | queryClip (index : Nat)
  | eventRead
  | eventReadComplete
  /-- a command code and argument bytes that are no command of the set -/
  | unknownCommand (code : Nat) (args : List Nat)
  /-- the bytes taken before the transaction was released -/
  | transactionAbort (taken : List Nat)
  /-- the start of a heard mark, with the pin levels sampled at it -/
  | cycleOpening (pins : List KeyLevel) (apart : List DueKind)
  | markReceived (mark : HeardMark) (apart : List DueKind)
  | runCountComplete
  | holdoffExpiry
  | markIntervalExpiry
  | markSent
  | markLost
  | readbackMismatch
  | messageSlot (slot : Nat)
  | messageSent
  | messageLost
  | presenceReceived (env : Envelope) (fresh : Bool) (stamp : Nat) (field : Bool) (programme : Nat)
  | laneClaimReceived (env : Envelope) (lane source : Nat)
  | talkOpenReceived (env : Envelope) (m : TalkOpen)
  | talkMoveReceived (env : Envelope) (source lane : Nat)
  | talkCloseReceived (env : Envelope) (source tag : Nat)
  | answerReceived (env : Envelope) (talker tag serial : Nat) (items : List WireItem)
  | feedNoticeReceived (env : Envelope) (feed talker source state reason : Nat)
  | callReceived (env : Envelope) (key kind : Nat) (dests : List Nat)
  | callAckReceived (env : Envelope) (caller feed key : Nat)
  | tallyReceived (env : Envelope) (dest : Nat) (on : Bool)
  | cueReceived (env : Envelope) (dest seconds mode : Nat)
  | cueStopReceived (env : Envelope) (dest mode : Nat)
  | laneSlotTransmit (lane : Nat)
  /-- a heard lane slot: lane, check, whether read-back shows it is the station's own, and its contents -/
  | laneSlotReceived (lane : Nat) (good own : Bool) (slot : Slot)
  /-- the station number read bit by bit from the winning header -/
  | slotHeaderLost (winner : Nat)
  | debounceComplete (key : Nat)
  | presenceDue
  | peerAgingAbsent (station : Nat)
  | laneAgeExpiry (lane : Nat)
  | claimWindowEnd (lane : Nat)
  | outstandingEntryRetire
  | tallyRefresh (dest : Nat)
  | deferExpiry (feed talker source : Nat)
  | onAirExpiry (feed origin dest : Nat)
  | callRepeat (feed caller key : Nat)
  | callExpiry (feed caller key : Nat)
  | cueToneRequest (clock : Nat)
  | cueClockZero (clock : Nat)
  | tonePhaseEnd (feed : Nat)
  | hangExpiry (source : Nat)
  | leavingTimeout
  | fieldFrameArrival (frame : FieldFrame)
  | fieldLoss (channel : Nat)
  | fieldFrameSent
  | outputSampleDue
  /-- one new sample of the local programme input and of microphone inputs A and B -/
  | audioInputSampled (programme micA micB : Sample)
deriving DecidableEq, Repr

end Sys2Proof
end

