-- ==== Sys2Proof/WellFormed.lean ====
section
/-! DEFINITION. The checks on a command's operands: each number fits the field that carries it (R204, R205, R207, R210), and a
row's operand is one that belongs to that row. -/

namespace Sys2Proof

/-- A sample of 24 bits (00, Conventions). -/
def fits24 (x : Sample) : Bool := decide (-8388608 ≤ x ∧ x ≤ 8388607)

/-- A sample of 16 bits (00, Conventions). -/
def fits16 (x : Sample) : Bool := decide (-32768 ≤ x ∧ x ≤ 32767)

/-- A byte. -/
def fitsByte (n : Nat) : Bool := decide (n < 256)

/-- The kind code of a heard message row: the row's own, or a code of no kind, which any row may carry (R208). -/
def Envelope.wellFormed (e : Envelope) (kind : Nat) : Bool :=
  decide (e.urgencyCode < 8 ∧ e.sender < 64 ∧ e.bodyLength < 256 ∧ (e.kind = kind ∨ (11 ≤ e.kind ∧ e.kind < 16)))

/-- The fields of a TALK-OPEN body fit their bits (R205). -/
def TalkOpen.wellFormed (m : TalkOpen) : Bool :=
  decide (m.source < 8 ∧ m.tag < 16 ∧ m.serial < 256 ∧ m.level < 8 ∧ m.lane < 32 ∧ m.dests.length < 8)
    && m.dests.all fitsByte

/-- The fields of an ANSWER item fit their bits (R205). -/
def WireItem.wellFormed (w : WireItem) : Bool :=
  decide (w.feed < 8 ∧ w.dest < 256 ∧ w.state < 4 ∧ w.reason < 8)

/-- The header fields fit their bits, and there are 48 samples of at most 24 bits (R204). -/
def Slot.wellFormed (t : Slot) : Bool :=
  decide (t.holder < 64 ∧ t.source < 8 ∧ t.programme < 16 ∧ t.samples.length = 48) && t.samples.all fits24

/-- The fields of a field frame fit their bytes (R207). -/
def FieldFrame.wellFormed (f : FieldFrame) : Bool :=
  decide (f.number < 65536 ∧ f.flags < 256 ∧ f.samplesA.length = 240 ∧ f.samplesB.length = 240)
    && f.samplesA.all fits16 && f.samplesB.all fits16

/-- Whether a command code with a number of argument bytes is a command of the set (R210). -/
def commandLength (code : Nat) : Option Nat :=
  match code with
  | 1 => some 392 | 2 => some 0 | 3 => some 2 | 4 => some 3 | 5 => some 2
  | 6 => some 3 | 7 => some 1 | 8 => some 3 | 9 => some 2 | 10 => some 0
  | _ => none

/-- A code and arguments that cannot be read as one command: an unknown code, a length that is not the code's, or a QUERY
with an unknown item (R189, R195, R210). -/
def unreadable (code : Nat) (args : List Nat) : Bool :=
  commandLength code != some args.length || (code == 9 && decide (10 < args.getD 0 0))

/-- The operands are such as the row's command or event can carry. -/
def Instr.wellFormed : Instr → Bool
  | .hardwareReset number org => decide (number < 64 ∧ org < 4)
  | .start block pins => block.all fitsByte && decide (pins.length = 12)
  | .keySetDown key level => decide (key < 256 ∧ 0 < level ∧ level < 256)
  | .keySetUp key => fitsByte key
  | .callAck feed caller key => fitsByte feed && fitsByte caller && fitsByte key
  | .tallySetOn dest state => decide (dest < 256 ∧ 0 < state ∧ state < 256)
  | .tallySetOff dest => fitsByte dest
  | .cueStart dest seconds mode => fitsByte dest && fitsByte seconds && fitsByte mode
  | .cueStop dest => fitsByte dest
  | .memoDiscard feed talker source => fitsByte feed && fitsByte talker && fitsByte source
  | .queryLine i | .queryPeer i | .queryLane i | .querySource i | .queryKey i | .queryPath i | .queryFeed i
  | .queryMemo i | .queryField i | .queryCue i | .queryClip i => fitsByte i
  | .unknownCommand code args => fitsByte code && args.all fitsByte && unreadable code args
  | .transactionAbort taken => taken.all fitsByte
  | .cycleOpening pins _ => decide (pins.length = 12)
  | .markReceived m _ => decide (m.number < 64 ∧ m.org < 4)
  | .messageSlot slot => decide (slot < 4)
  | .presenceReceived env _ stamp _ programme => env.wellFormed 0 && decide (stamp < 65536 ∧ programme < 16)
  | .laneClaimReceived env lane source => env.wellFormed 1 && decide (lane < 32 ∧ source < 8)
  | .talkOpenReceived env m => env.wellFormed 2 && m.wellFormed
  | .talkMoveReceived env source lane => env.wellFormed 3 && decide (source < 8 ∧ lane < 32)
  | .talkCloseReceived env source tag => env.wellFormed 4 && decide (source < 8 ∧ tag < 16)
  | .answerReceived env talker tag serial items =>
    env.wellFormed 5 && decide (talker < 64 ∧ tag < 16 ∧ serial < 256 ∧ items.length < 8)
      && items.all WireItem.wellFormed
  | .feedNoticeReceived env feed talker source state reason =>
    env.wellFormed 6 && decide (feed < 8 ∧ talker < 64 ∧ source < 8 ∧ state < 4 ∧ reason < 8)
  | .callReceived env key kind dests =>
    env.wellFormed 7 && decide (key < 16 ∧ kind < 2 ∧ dests.length < 8) && dests.all fitsByte
  | .callAckReceived env caller feed key => env.wellFormed 8 && decide (caller < 64 ∧ feed < 8 ∧ key < 16)
  | .tallyReceived env dest _ => env.wellFormed 9 && fitsByte dest
  | .cueReceived env dest seconds mode =>
    env.wellFormed 10 && decide (dest < 256 ∧ 0 < seconds ∧ seconds < 128 ∧ mode < 2)
  | .cueStopReceived env dest mode => env.wellFormed 10 && decide (dest < 256 ∧ mode < 2)
  | .laneSlotTransmit lane => decide (lane < 24)
  | .laneSlotReceived lane _ _ slot => decide (lane < 24) && slot.wellFormed
  | .slotHeaderLost winner => decide (winner < 64)
  | .debounceComplete key => decide (key < 12)
  | .peerAgingAbsent station => decide (1 ≤ station ∧ station ≤ 62)
  | .laneAgeExpiry lane | .claimWindowEnd lane => decide (lane < 24)
  | .tallyRefresh dest => fitsByte dest
  | .deferExpiry feed talker source => decide (feed < 6 ∧ 1 ≤ talker ∧ talker ≤ 62 ∧ source < 4)
  | .onAirExpiry feed origin dest => decide (feed < 6 ∧ 1 ≤ origin ∧ origin ≤ 62 ∧ dest < 256)
  | .callRepeat feed caller key | .callExpiry feed caller key =>
    decide (feed < 6 ∧ 1 ≤ caller ∧ caller ≤ 62 ∧ key < 12)
  | .cueToneRequest clock | .cueClockZero clock => decide (clock < 4)
  | .tonePhaseEnd feed => decide (feed < 6)
  | .hangExpiry source => decide (source < 4)
  | .fieldFrameArrival frame => frame.wellFormed
  | .fieldLoss channel => decide (channel < 2)
  | .audioInputSampled programme micA micB => fits24 programme && fits24 micA && fits24 micB
  | .stop | .eventRead | .eventReadComplete | .runCountComplete | .holdoffExpiry | .markIntervalExpiry
  | .markSent | .markLost | .readbackMismatch | .messageSent | .messageLost | .presenceDue
  | .outstandingEntryRetire | .leavingTimeout | .fieldFrameSent | .outputSampleDue => true

end Sys2Proof
end

