-- ==== Sys2Proof/Decode.lean ====
section
/-! DEFINITION. The bit and byte formats of the line, the field port and the control port (R203–R207, R209, R210, R212): how an
item is written out, and how a heard or received one is read into a command. The opcode table gives no bits, so
`decodeTableWord` reads no word. -/

namespace Sys2Proof

/-- The command that a word of the opcode table spells. No row of the table gives bits: none. -/
def decodeTableWord (_nbits _w : Nat) : Option Instr := none

/-! ### Bits and bytes, most significant first -/

/-- `n` in `w` bits, most significant first. -/
def bitsOf : Nat → Nat → List Bool
  | 0, _ => []
  | w + 1, n => (n / 2 ^ w % 2 == 1) :: bitsOf w n

/-- The number whose bits these are, most significant first. -/
def natOf (bits : List Bool) : Nat := bits.foldl (fun a b => 2 * a + b.toNat) 0

/-- A flag as one bit, 1 when set. -/
def flagBit (b : Bool) : List Bool := [b]

/-- A signed value in `w` bits, two's complement. -/
def signedBits (w : Nat) (x : Int) : List Bool := bitsOf w (x % (2 ^ w : Nat)).toNat

/-- The signed value of `w` bits, two's complement. -/
def signedOf (bits : List Bool) : Int :=
  let n := natOf bits
  if n < 2 ^ (bits.length - 1) then (n : Int) else (n : Int) - (2 ^ bits.length : Nat)

/-- The bits of a byte string, most significant bit of each byte first. -/
def bitsOfBytes (bs : List Nat) : List Bool := bs.flatMap (bitsOf 8)

/-- Two bytes, most significant first. -/
def bytes2 (n : Nat) : List Nat := [n / 256 % 256, n % 256]

/-- The bytes of a bit string. -/
def bytesOfBits : Nat → List Bool → List Nat
  | 0, _ => []
  | n + 1, bits => natOf (bits.take 8) :: bytesOfBits n (bits.drop 8)

/-! ### The check (R206) -/

/-- One bit through the register. -/
def crcStep (r : Nat) (b : Bool) : Nat :=
  let shifted := r * 2 % 65536
  if (r / 32768 % 2 == 1) != b then Nat.xor shifted 0x1021 else shifted

/-- The CRC-16 of a bit string. -/
def crc16 (bits : List Bool) : Nat := bits.foldl crcStep 0xFFFF

/-- An item on the line: start bit, covered bits, check. -/
def framed (covered : List Bool) : List Bool := false :: covered ++ bitsOf 16 (crc16 covered)

/-! ### Positions in a cycle (R203), in bit times of 40 ns, 25 to the microsecond -/

/-- The bit at which message slot `i` begins. -/
def messageSlotBit (i : Nat) : Nat := 50 + 200 * i

/-- The bit at which lane slot `l` begins under an organisation code. -/
def laneSlotBit (org l : Nat) : Nat := 900 + (if org = 1 then 1200 else 800) * l

/-! ### Messages (R16, R205) -/

/-- The kind code of a message. -/
def Message.kindCode : Message → Nat
  | .presence .. => 0
  | .laneClaim .. => 1
  | .talkOpen .. => 2
  | .talkMove .. => 3
  | .talkClose .. => 4
  | .answer .. => 5
  | .feedNotice .. => 6
  | .call .. => 7
  | .callAck .. => 8
  | .tally .. => 9
  | .cue .. => 10

/-- The urgency of a kind code (R16). -/
def urgencyOfKind (kind : Nat) : Nat :=
  match kind with
  | 4 => 7
  | 5 | 6 | 3 => 6
  | 1 => 5
  | 2 => 4
  | 7 | 8 | 10 => 3
  | 9 => 2
  | _ => 1

/-- The urgency of a message. -/
def Message.urgency (m : Message) : Nat := urgencyOfKind m.kindCode

/-- The kinds of the reply class (R16). -/
def Message.reply : Message → Bool
  | .talkClose .. | .answer .. | .feedNotice .. | .talkMove .. | .laneClaim .. => true
  | _ => false

/-- The length in bits of the body (R205). -/
def Message.bodyLength : Message → Nat
  | .presence .. => 22
  | .laneClaim .. => 8
  | .talkOpen m => 28 + 8 * m.dests.length
  | .talkMove .. => 8
  | .talkClose .. => 7
  | .answer _ _ _ items => 21 + 16 * items.length
  | .feedNotice .. => 17
  | .call _ _ dests => 8 + 8 * dests.length
  | .callAck .. => 13
  | .tally .. => 9
  | .cue .. => 16

/-- A destination count and the destinations. -/
def destBits (dests : List Nat) : List Bool := bitsOf 3 dests.length ++ dests.flatMap (bitsOf 8)

/-- An item of an ANSWER. -/
def WireItem.bits (w : WireItem) : List Bool :=
  bitsOf 3 w.feed ++ bitsOf 8 w.dest ++ bitsOf 2 w.state ++ bitsOf 3 w.reason

/-- The bits of a message's body. -/
def Message.bodyBits : Message → List Bool
  | .presence fresh stamp field programme =>
    flagBit fresh ++ bitsOf 16 stamp ++ flagBit field ++ bitsOf 4 programme
  | .laneClaim lane source => bitsOf 5 lane ++ bitsOf 3 source
  | .talkOpen m =>
    bitsOf 3 m.source ++ bitsOf 4 m.tag ++ bitsOf 8 m.serial ++ bitsOf 3 m.level ++ flagBit m.memo
      ++ flagBit m.reannounce ++ bitsOf 5 m.lane ++ destBits m.dests
  | .talkMove source lane => bitsOf 3 source ++ bitsOf 5 lane
  | .talkClose source tag => bitsOf 3 source ++ bitsOf 4 tag
  | .answer talker tag serial items =>
    bitsOf 6 talker ++ bitsOf 4 tag ++ bitsOf 8 serial ++ bitsOf 3 items.length ++ items.flatMap WireItem.bits
  | .feedNotice feed talker source state reason =>
    bitsOf 3 feed ++ bitsOf 6 talker ++ bitsOf 3 source ++ bitsOf 2 state ++ bitsOf 3 reason
  | .call key kind dests => bitsOf 4 key ++ bitsOf 1 kind ++ destBits dests
  | .callAck caller feed key => bitsOf 6 caller ++ bitsOf 3 feed ++ bitsOf 4 key
  | .tally dest on => bitsOf 8 dest ++ flagBit on
  | .cue dest seconds mode => bitsOf 8 dest ++ bitsOf 7 seconds ++ bitsOf 1 mode

/-- The envelope of a message from a sender, without its start bit (R205). -/
def Message.envelopeBits (sender : Nat) (m : Message) : List Bool :=
  bitsOf 3 (7 - m.urgency) ++ bitsOf 6 sender ++ bitsOf 4 m.kindCode ++ bitsOf 8 m.bodyLength

/-- The whole message on the line. -/
def Message.bits (sender : Nat) (m : Message) : List Bool := framed (m.envelopeBits sender ++ m.bodyBits)

/-- The row of the table under which a message is heard. -/
def Message.heard (env : Envelope) : Message → Instr
  | .presence fresh stamp field programme => .presenceReceived env fresh stamp field programme
  | .laneClaim lane source => .laneClaimReceived env lane source
  | .talkOpen m => .talkOpenReceived env m
  | .talkMove source lane => .talkMoveReceived env source lane
  | .talkClose source tag => .talkCloseReceived env source tag
  | .answer talker tag serial items => .answerReceived env talker tag serial items
  | .feedNotice feed talker source state reason => .feedNoticeReceived env feed talker source state reason
  | .call key kind dests => .callReceived env key kind dests
  | .callAck caller feed key => .callAckReceived env caller feed key
  | .tally dest on => .tallyReceived env dest on
  | .cue dest seconds mode =>
    if seconds = 0 then .cueStopReceived env dest mode else .cueReceived env dest seconds mode

/-- The first `w` bits as a number, and the rest. -/
def takeField (w : Nat) (bits : List Bool) : Nat × List Bool := (natOf (bits.take w), bits.drop w)

/-- `n` destinations of 8 bits each. -/
def takeDests : Nat → List Bool → List Nat
  | 0, _ => []
  | n + 1, bits => natOf (bits.take 8) :: takeDests n (bits.drop 8)

/-- `n` items of 16 bits each. -/
def takeItems : Nat → List Bool → List WireItem
  | 0, _ => []
  | n + 1, bits =>
    let (feed, b) := takeField 3 bits
    let (dest, b) := takeField 8 b
    let (state, b) := takeField 2 b
    let (reason, b) := takeField 3 b
    ⟨feed, dest, state, reason⟩ :: takeItems n b

/-- The message whose kind code and body bits these are. A code of no kind gives a PRESENCE of zeros, which the envelope's kind
then shows to be malformed (R208). -/
def messageOf (kind : Nat) (b : List Bool) : Message :=
  match kind with
  | 0 =>
    let (fresh, b) := takeField 1 b
    let (stamp, b) := takeField 16 b
    let (field, b) := takeField 1 b
    .presence (fresh == 1) stamp (field == 1) (takeField 4 b).1
  | 1 =>
    let (lane, b) := takeField 5 b
    .laneClaim lane (takeField 3 b).1
  | 2 =>
    let (source, b) := takeField 3 b
    let (tag, b) := takeField 4 b
    let (serial, b) := takeField 8 b
    let (level, b) := takeField 3 b
    let (memo, b) := takeField 1 b
    let (reannounce, b) := takeField 1 b
    let (lane, b) := takeField 5 b
    let (count, b) := takeField 3 b
    .talkOpen ⟨source, tag, serial, level, memo == 1, reannounce == 1, lane, takeDests count b⟩
  | 3 =>
    let (source, b) := takeField 3 b
    .talkMove source (takeField 5 b).1
  | 4 =>
    let (source, b) := takeField 3 b
    .talkClose source (takeField 4 b).1
  | 5 =>
    let (talker, b) := takeField 6 b
    let (tag, b) := takeField 4 b
    let (serial, b) := takeField 8 b
    let (count, b) := takeField 3 b
    .answer talker tag serial (takeItems count b)
  | 6 =>
    let (feed, b) := takeField 3 b
    let (talker, b) := takeField 6 b
    let (source, b) := takeField 3 b
    let (state, b) := takeField 2 b
    .feedNotice feed talker source state (takeField 3 b).1
  | 7 =>
    let (key, b) := takeField 4 b
    let (k, b) := takeField 1 b
    let (count, b) := takeField 3 b
    .call key k (takeDests count b)
  | 8 =>
    let (caller, b) := takeField 6 b
    let (feed, b) := takeField 3 b
    .callAck caller feed (takeField 4 b).1
  | 9 =>
    let (dest, b) := takeField 8 b
    .tally dest ((takeField 1 b).1 == 1)
  | 10 =>
    let (dest, b) := takeField 8 b
    let (seconds, b) := takeField 7 b
    .cue dest seconds (takeField 1 b).1
  | _ => .presence false 0 false 0

/-- The command that the bits of a heard message make, the start bit first: the envelope is read, the body length says where the
check stands, and the check is computed over what precedes it (R205, R206). No start bit, no message. -/
def hearMessage (own : Bool) (bits : List Bool) : Option Instr :=
  match bits with
  | false :: b0 =>
    let (urgencyCode, b) := takeField 3 b0
    let (sender, b) := takeField 6 b
    let (kind, b) := takeField 4 b
    let (length, b) := takeField 8 b
    let covered := b0.take (21 + length)
    let check := (takeField 16 (b0.drop (21 + length))).1
    some ((messageOf kind (b.take length)).heard ⟨crc16 covered == check, own, urgencyCode, sender, kind, length⟩)
  | _ => none

/-! ### Marks and lane slots (R204) -/

/-- The covered bits of a mark. -/
def markCovered (number org : Nat) : List Bool := bitsOf 6 number ++ bitsOf 2 org

/-- A mark on the line. -/
def markBits (number org : Nat) : List Bool := framed (markCovered number org)

/-- The bits of a sample under an organisation code. -/
def sampleWidth (org : Nat) : Nat := if org = 1 then 24 else 16

/-- A lane slot on the line. -/
def Slot.bits (org : Nat) (t : Slot) : List Bool :=
  framed (bitsOf 6 t.holder ++ bitsOf 3 t.source ++ flagBit t.quiet ++ bitsOf 4 t.programme
    ++ t.samples.flatMap (signedBits (sampleWidth org)))

/-- The command that the bits of a heard mark make. -/
def hearMark (own : Bool) (bits : List Bool) (apart : List DueKind) : Option Instr :=
  match bits with
  | false :: b0 =>
    let (number, b) := takeField 6 b0
    let (org, b) := takeField 2 b
    some (.markReceived ⟨crc16 (b0.take 8) == (takeField 16 b).1, own, number, org⟩ apart)
  | _ => none

/-- `n` signed samples of `w` bits each. -/
def takeSamples (w : Nat) : Nat → List Bool → List Sample
  | 0, _ => []
  | n + 1, bits => signedOf (bits.take w) :: takeSamples w n (bits.drop w)

/-- The command that the bits of a heard lane slot make. -/
def hearSlot (org lane : Nat) (own : Bool) (bits : List Bool) : Option Instr :=
  match bits with
  | false :: b0 =>
    let w := sampleWidth org
    let (holder, b) := takeField 6 b0
    let (source, b) := takeField 3 b
    let (quiet, b) := takeField 1 b
    let (programme, b) := takeField 4 b
    let covered := b0.take (14 + 48 * w)
    let check := (takeField 16 (b0.drop (14 + 48 * w))).1
    some (.laneSlotReceived lane (crc16 covered == check) own
      ⟨holder, source, quiet == 1, programme, takeSamples w 48 b⟩)
  | _ => none

/-! ### Field frames (R207) -/

/-- A 16-bit sample as two bytes. -/
def sampleBytes (x : Sample) : List Nat := bytes2 ((x % 65536).toNat)

/-- The bytes of a frame before its check. -/
def frameBody (number : Nat) (presentA presentB : Bool) (a b : List Sample) : List Nat :=
  bytes2 number ++ [presentA.toNat + 2 * presentB.toNat] ++ a.flatMap sampleBytes ++ b.flatMap sampleBytes

/-- A frame as sent. -/
def frameBytes (number : Nat) (presentA presentB : Bool) (a b : List Sample) : List Nat :=
  let body := frameBody number presentA presentB a b
  body ++ bytes2 (crc16 (bitsOfBytes body))

/-- Two bytes at a position, most significant first. -/
def word16 (bs : List Nat) (i : Nat) : Nat := bs.getD i 0 * 256 + bs.getD (i + 1) 0

/-- The signed 16-bit value of a word. -/
def signed16 (n : Nat) : Int := if n < 32768 then (n : Int) else (n : Int) - 65536

/-- The command that the bytes of a received frame make. -/
def receiveFrame (bs : List Nat) : Instr :=
  .fieldFrameArrival
    { length := bs.length
      good := crc16 (bitsOfBytes (bs.take 963)) == word16 bs 963
      number := word16 bs 0
      flags := bs.getD 2 0
      samplesA := (List.range 240).map fun k => signed16 (word16 bs (3 + 2 * k))
      samplesB := (List.range 240).map fun k => signed16 (word16 bs (483 + 2 * k)) }

/-! ### Commands (R209, R210) -/

/-- The QUERY row of an item code. -/
def queryOf (item index : Nat) : Option Instr :=
  match item with
  | 0 => some (.queryLine index)
  | 1 => some (.queryPeer index)
  | 2 => some (.queryLane index)
  | 3 => some (.querySource index)
  | 4 => some (.queryKey index)
  | 5 => some (.queryPath index)
  | 6 => some (.queryFeed index)
  | 7 => some (.queryMemo index)
  | 8 => some (.queryField index)
  | 9 => some (.queryCue index)
  | 10 => some (.queryClip index)
  | _ => none

/-- The command of a code and its arguments. `pins` are the levels at the key pins, which START samples (R43). -/
def commandOf (code : Nat) (args : List Nat) (pins : List KeyLevel) : Instr :=
  if unreadable code args then .unknownCommand code args
  else
    match code, args with
    | 1, block => .start block pins
    | 2, _ => .stop
    | 3, [key, level] => if level = 0 then .keySetUp key else .keySetDown key level
    | 4, [feed, caller, key] => .callAck feed caller key
    | 5, [dest, state] => if state = 0 then .tallySetOff dest else .tallySetOn dest state
    | 6, [dest, seconds, mode] => .cueStart dest seconds mode
    | 7, [dest] => .cueStop dest
    | 8, [feed, talker, source] => .memoDiscard feed talker source
    | 9, [item, index] => (queryOf item index).getD (.unknownCommand code args)
    | 10, _ => .eventRead
    | _, _ => .unknownCommand code args

/-- The command that the bytes taken in one transaction make (R209): a code, a two-byte length and as many arguments. Only a complete
command is examined; a transaction released with fewer bytes is one ended before its command is complete, whatever its code and
length (R188). -/
def receiveCommand (taken : List Nat) (pins : List KeyLevel) : Instr :=
  match taken with
  | code :: hi :: lo :: rest =>
    let length := hi * 256 + lo
    if rest.length < length then .transactionAbort taken
    else commandOf code (rest.take length) pins
  | _ => .transactionAbort taken

/-! ### The configuration block (R212) -/

/-- A flag byte: 0 is clear and any other value is set. -/
def flagAt (bs : List Nat) (i : Nat) : Bool := bs.getD i 0 != 0

/-- Bytes from a position. -/
def bytesAt (bs : List Nat) (i n : Nat) : List Nat := (List.range n).map fun k => bs.getD (i + k) 0

/-- The station-wide settings: 8 bytes. -/
def stationCfgAt (bs : List Nat) (i : Nat) : StationCfg :=
  ⟨word16 bs i, word16 bs (i + 2), bs.getD (i + 4) 0, bs.getD (i + 5) 0, bs.getD (i + 6) 0, bs.getD (i + 7) 0⟩

/-- The settings of one source: 4 bytes. -/
def sourceCfgAt (bs : List Nat) (i : Nat) : SourceCfg := ⟨bs.getD i 0, bs.getD (i + 1) 0, word16 bs (i + 2)⟩

/-- The open-talk settings of one source: 7 bytes. -/
def openTalkCfgAt (bs : List Nat) (i : Nat) : OpenTalkCfg :=
  ⟨bs.getD i 0, bytesAt bs (i + 1) 4, bs.getD (i + 5) 0, flagAt bs (i + 6)⟩

/-- The settings of one key: 13 bytes. -/
def keyCfgAt (bs : List Nat) (i : Nat) : KeyCfg where
  kind := bs.getD i 0
  mode := bs.getD (i + 1) 0
  fn := bs.getD (i + 2) 0
  source := bs.getD (i + 3) 0
  level := bs.getD (i + 4) 0
  count := bs.getD (i + 5) 0
  destBytes := bytesAt bs (i + 6) 4
  memo := flagAt bs (i + 10)
  callKind := bs.getD (i + 11) 0
  replyFeed := bs.getD (i + 12) 0

/-- The settings of one feed: 31 bytes. -/
def feedCfgAt (bs : List Nat) (i : Nat) : FeedCfg where
  type := bs.getD i 0
  count := bs.getD (i + 1) 0
  destBytes := bytesAt bs (i + 2) 8
  home := flagAt bs (i + 10)
  allCall := flagAt bs (i + 11)
  floor := bs.getD (i + 12) 0
  onAirFloor := bs.getD (i + 13) 0
  dims := bytesAt bs (i + 14) 6
  programme := bs.getD (i + 20) 0
  progGain := bs.getD (i + 21) 0
  talkGain := bs.getD (i + 22) 0
  toneGain := bs.getD (i + 23) 0
  ramp := bs.getD (i + 24) 0
  dimSource := bs.getD (i + 25) 0
  talkDim := bs.getD (i + 26) 0
  callFreq := bs.getD (i + 27) 0
  cueFreq := bs.getD (i + 28) 0
  lead := word16 bs (i + 29)

/-- The settings of one memo channel: 3 bytes. -/
def memoCfgAt (bs : List Nat) (i : Nat) : MemoCfg := ⟨word16 bs i, flagAt bs (i + 2)⟩

/-- The configuration of the 392 bytes of the block. -/
def configurationOf (bs : List Nat) : Configuration where
  station := stationCfgAt bs 0
  sources := (List.range 4).map fun n => sourceCfgAt bs (8 + 4 * n)
  openTalk := (List.range 2).map fun n => openTalkCfgAt bs (24 + 7 * n)
  keys := (List.range 12).map fun n => keyCfgAt bs (38 + 13 * n)
  feeds := (List.range 6).map fun n => feedCfgAt bs (194 + 31 * n)
  memos := (List.range 4).map fun n => memoCfgAt bs (380 + 3 * n)

end Sys2Proof
end

