-- ==== Sys2Proof/Machine/State.lean ====
section
/-! DEFINITION. The state of the station, block by block (00, Block overview), as plain data, and its value right after hardware
reset (R187). -/

namespace Sys2Proof.Machine

/-- No behaviour of this block stops it (INVENTORY, Faults): there is no fault. -/
inductive Fault
deriving DecidableEq, Repr

/-- Why `exec` gives a command no meaning. -/
inductive Refusal
  /-- Raised by an arm of `exec` whose command has no meaning yet. Safe: the model stops. No arm raises it. -/
  | notModelled (mnemonic : String)
deriving DecidableEq, Repr

/-! ### Line interface -/

/-- Line states (R6–R14). -/
inductive LineState
  | offline | listening | active | leaving | mismatch | silenced
deriving DecidableEq, Repr

/-- Why an offered message is withdrawn while it is locked (R18). -/
inductive Withdrawal
  /-- the path was closed (R63) -/
  | close
  /-- the source lost its lane (R70, R71) -/
  | laneLost
  /-- the picked lane stopped being FREE (R32) -/
  | repick
  /-- the source's need ended (R38) -/
  | needEnd
  /-- LEAVING was entered (R10) -/
  | leaving
deriving DecidableEq, Repr

/-- A place of the outbound message queue: the message, its lock (R18), and a withdrawal that waits for the outcome. -/
structure OutMsg where
  msg : Message
  locked : Bool
  drop : Option Withdrawal
deriving DecidableEq, Repr

/-- What the station is driving onto the line (R2). -/
inductive Driven
  /-- its mark, with the microsecond count at the mark's start -/
  | mark (start : Nat)
  /-- the locked message of the queue -/
  | message
  /-- the slot of a lane -/
  | slot (lane : Nat) (slot : Slot)
deriving DecidableEq, Repr

/-- The line interface (R20). -/
structure LineIf where
  lineState : LineState
  strapNumber : Nat
  strapOrg : Nat
  marker : Bool
  /-- microsecond count at which the holdoff timer expires, or stopped (R4) -/
  holdoff : Option Nat
  /-- microsecond count at which the mark interval timer expires, or stopped (R5) -/
  interval : Option Nat
  runCount : Nat
  queue : List OutMsg
  /-- a message was sent earlier in this cycle (R15) -/
  sentThisCycle : Bool
  joinStamp : Option Nat
  /-- microseconds since hardware reset (R8) -/
  micros : Nat
  /-- microsecond count at the start of the last mark heard -/
  markStart : Nat
  leavingCount : Nat
  /-- openings since the entry to ACTIVE (R26) -/
  activeCycles : Nat
  driving : Option Driven
deriving DecidableEq, Repr

/-! ### Peer and lane table -/

/-- A peer entry (R22). -/
structure Peer where
  present : Bool
  age : Nat
  stamp : Option Nat
  field : Bool
  programme : Nat
deriving DecidableEq, Repr

/-- An entry that is ABSENT (R23, R41). -/
def Peer.gone : Peer := ⟨false, 1000, none, false, 0⟩

/-- A lane record (02, The lane view). -/
inductive Lane
  | free
  | held (holder source programme age : Nat) (seen : Bool)
  | claiming (source count : Nat)
  | mine (source : Nat)
deriving DecidableEq, Repr

/-- A source's lane phase (02, The lane view). -/
inductive Phase
  | idle
  | waiting
  | pending (lane : Nat)
  | claiming (lane : Nat)
  | mine (lane : Nat)
deriving DecidableEq, Repr

/-- A source lane record. -/
structure SourceRec where
  need : Bool
  phase : Phase
  moved : Bool
deriving DecidableEq, Repr

/-- The peer and lane table (R41). -/
structure Plt where
  peers : List Peer
  lanes : List Lane
  sources : List SourceRec
deriving DecidableEq, Repr

/-! ### Key unit -/

/-- A key's logical state (R42). -/
inductive KeyState
  | idle | opening | opened | latched
deriving DecidableEq, Repr

/-- A key's dynamic record (R42). -/
structure Key where
  stable : KeyLevel
  debounce : Nat
  logical : KeyState
  latch : Bool
  pressLength : Nat
  resolved : Option Nat
deriving DecidableEq, Repr

/-- A key after hardware reset (R43). -/
def Key.rest : Key := ⟨.up, 0, .idle, false, 0, none⟩

/-- The key unit (R43). -/
structure Ku where
  keys : List Key
deriving DecidableEq, Repr

/-! ### Talk request unit -/

/-- An open: what a path asks for (R60). -/
structure OpenReq where
  source : Nat
  level : Nat
  memo : Bool
  dests : List Nat
deriving DecidableEq, Repr

/-- The state of an answer item (R59). -/
inductive ItemState
  | admitted | held | refused | removed
deriving DecidableEq, Repr

/-- The reason of an answer item or notice (R100, R101). -/
inductive Reason
  | none | promoted | setBack | expired | floor | full
deriving DecidableEq, Repr

/-- An item of an answer list (R59). -/
structure Item where
  listener : Nat
  feed : Nat
  dest : Nat
  state : ItemState
  reason : Reason
deriving DecidableEq, Repr

/-- Path record states (R59). -/
inductive PathState
  | preparing | issued | opened | closing
deriving DecidableEq, Repr

/-- A path record that is present (R59). -/
structure Path where
  state : PathState
  req : OpenReq
  serial : Option Nat
  lane : Option Nat
  answers : List Item
  /-- one count for each destination -/
  overflow : List Nat
  successor : Option OpenReq
  reannouncePending : Bool
  closePending : Bool
deriving DecidableEq, Repr

/-- An outstanding request entry (R65). -/
structure Outstanding where
  tag : Nat
  serial : Nat
  source : Nat
  dests : List Nat
  age : Nat
  closedEarly : Bool
  answers : List Item
  overflow : List Nat
deriving DecidableEq, Repr

/-- The state of a call-origination record (R73). -/
inductive CallState
  | idle | queued | sent | acked
deriving DecidableEq, Repr

/-- A call-origination record (R73). -/
structure CallOrigin where
  state : CallState
  unsent : Nat
deriving DecidableEq, Repr

/-- A destination of the tally-origination list (R76). -/
structure TallyOrigin where
  dest : Nat
  refresh : Nat
deriving DecidableEq, Repr

/-- The talk request unit (R79). -/
structure Tru where
  paths : List (Option Path)
  serial : Nat
  outstanding : List Outstanding
  /-- S0–S3 -/
  movePending : List Bool
  calls : List (Option CallOrigin)
  tallies : List TallyOrigin
deriving DecidableEq, Repr

/-! ### Cut-in arbiter -/

/-- A tag of an entry (R82). -/
structure EntryTag where
  tag : Nat
  level : Nat
  dest : Nat
  memo : Bool
deriving DecidableEq, Repr

/-- An entry (R82). Its state is the list it stands in; it is draining when it has no tag (R94). `voice` is the mix engine's
voice multiplier of this very record (R139), `played` the block the memo unit read for it at this opening (R116). -/
structure Entry where
  talker : Nat
  source : Nat
  tags : List EntryTag
  level : Nat
  lane : Nat
  arrival : Nat
  deferAge : Nat
  /-- memo channels, head first -/
  chain : List Nat
  voice : Option Nat
  played : Option Block
deriving DecidableEq, Repr

/-- An on-air record (R102). -/
structure OnAir where
  origin : Nat
  dest : Nat
  age : Nat
deriving DecidableEq, Repr

/-- A record of a call list (R105). -/
structure CallRec where
  caller : Nat
  key : Nat
  urgent : Bool
  dest : Nat
  age : Nat
deriving DecidableEq, Repr

/-- A feed's dynamic record (R81). -/
structure Feed where
  /-- bottom to top -/
  stack : List Entry
  /-- in arrival order -/
  admitted : List Entry
  /-- by rank, head first -/
  deferred : List Entry
  arrival : Nat
  onAir : List OnAir
  /-- oldest first -/
  calls : List CallRec
  reply : Option Nat
deriving DecidableEq, Repr

/-- A feed after hardware reset (R108). -/
def Feed.rest : Feed := ⟨[], [], [], 0, [], [], none⟩

/-- The cut-in arbiter (R108): F0–F5. -/
structure Cia where
  feeds : List Feed
deriving DecidableEq, Repr

/-! ### Memo unit -/

/-- The state of a memo channel (R111). -/
inductive MemoState
  | idle | capture | pause | full | play | drain
deriving DecidableEq, Repr

/-- The entry whose chain holds a channel (R111). -/
structure Owner where
  feed : Nat
  talker : Nat
  source : Nat
deriving DecidableEq, Repr

/-- A memo channel (R111). Its fill is the number of its blocks. -/
structure Channel where
  state : MemoState
  owner : Option Owner
  /-- 16-bit samples, oldest block first -/
  blocks : List Block
  lost : Nat
  /-- the last block offered for storing was lost (R113, R115) -/
  lostRun : Bool
deriving DecidableEq, Repr

/-- An IDLE channel (R126). -/
def Channel.rest : Channel := ⟨.idle, none, [], 0, false⟩

/-- The memo unit (R126): M0–M3. -/
structure Mu where
  channels : List Channel
deriving DecidableEq, Repr

/-! ### Mix engine -/

/-- A place of the lane store (R129). -/
structure Stored where
  slot : Slot
  good : Bool
  cycle : Nat
deriving DecidableEq, Repr

/-- The values a feed holds after its last mix (R149), its voice multipliers among them: they stay until the next mix (R148). -/
structure MixView where
  level : Nat
  dim : Nat
  progCode : Nat
  voiceCode : Nat
  lane : Option Nat
  /-- of the entries audible at that mix, in their order -/
  voices : List Nat
deriving DecidableEq, Repr

/-- A feed's part of the mix engine (R148). -/
structure Mix where
  prog : Option Nat
  absent : Bool
  clip : Bool
  last : Option MixView
  playout : List Sample
deriving DecidableEq, Repr

/-- A feed's mix record after hardware reset (R148). -/
def Mix.rest : Mix := ⟨none, false, false, none, []⟩

/-- The mix engine (R148). -/
structure Mx where
  cycle : Nat
  store : List (Option Stored)
  mixes : List Mix
  outputs : List Sample
  localRun : List Sample
  localBlock : Block
deriving DecidableEq, Repr

/-! ### Voice detector -/

/-- The detector's record of one source (R150), with the block it passed to the line interface. -/
structure Vox where
  envelope : Nat
  voice : Bool
  hang : Nat
  block : Block
deriving DecidableEq, Repr

/-- A detector record after hardware reset (R155). -/
def Vox.rest : Vox := ⟨0, false, 0, zeroBlock⟩

/-- The voice detector (R155): S0–S3, and the most recent samples of the microphone inputs. -/
structure Vd where
  sources : List Vox
  micA : List Sample
  micB : List Sample
deriving DecidableEq, Repr

/-! ### Tone and cue unit -/

/-- The patterns of a tone slot (R156). -/
inductive Pattern
  | call | cueBeep | cueZero
deriving DecidableEq, Repr

/-- A tone slot that holds a pattern (R156). -/
structure Tone where
  pattern : Pattern
  phase : Nat
  mixes : Nat
  samples : Nat
deriving DecidableEq, Repr

/-- A RUNNING cue clock (R160). -/
structure Clock where
  origin : Nat
  dest : Nat
  feed : Nat
  seconds : Nat
  repeats : Bool
  remaining : Nat
deriving DecidableEq, Repr

/-- The tone and cue unit (R159, R165): the tone slots of F0–F5 and the clocks C0–C3. -/
structure Tcu where
  slots : List (Option Tone)
  clocks : List (Option Clock)
deriving DecidableEq, Repr

/-! ### Field bridge -/

/-- A held frame of one channel (R168). -/
structure HeldFrame where
  number : Nat
  samples : List Sample
deriving DecidableEq, Repr

/-- The state of a field channel (R168). -/
inductive ChanState
  | idle | filling | playing | lost
deriving DecidableEq, Repr

/-- The bridge's open-talk state of a channel (R178). -/
inductive OpenTalk
  | none | opening | opened
deriving DecidableEq, Repr

/-- A field channel's record (09, The inbound channel). -/
structure Chan where
  state : ChanState
  resync : Bool
  expected : Nat
  offset : Nat
  queue : List HeldFrame
  /-- 16-bit samples -/
  last : Block
  loss : Nat
  openTalk : OpenTalk
  late : Nat
  duplicate : Nat
  resyncs : Nat
  concealed : Nat
deriving DecidableEq, Repr

/-- A channel after hardware reset (R184). -/
def Chan.rest : Chan := ⟨.idle, false, 0, 0, [], zeroBlock, 0, .none, 0, 0, 0, 0⟩

/-- An outbound frame (R180). -/
structure OutFrame where
  number : Nat
  presentA : Bool
  presentB : Bool
  samplesA : List Sample
  samplesB : List Sample
deriving DecidableEq, Repr

/-- The field bridge (R184). -/
structure Fb where
  chans : List Chan
  checkFails : Nat
  framing : Bool
  frameNo : Nat
  gatherPos : Nat
  gatherA : List Sample
  gatherB : List Sample
  hold : Option OutFrame
  sending : Option OutFrame
  drops : Nat
deriving DecidableEq, Repr

/-! ### Control port -/

/-- Why a SILENCED state was entered: the four cases of R13, in order. -/
inductive SilencedCause
  | listeningOwn | foreignStamp | ownNotSent | readback
deriving DecidableEq, Repr

/-- KEY-REFUSED reasons (R58). -/
inductive KeyRefusal
  | line | noReply | queue
deriving DecidableEq, Repr

/-- TALLY-CHANGE causes (R102). -/
inductive TallyCause
  | on | off | expired | absent
deriving DecidableEq, Repr

/-- CALL-EXPIRED causes (R105, R106). -/
inductive CallCause
  | dropped | age | absent
deriving DecidableEq, Repr

/-- FIELD-STATE causes (R185). -/
inductive FieldCause
  | firstFrame | filled | resync | loss
deriving DecidableEq, Repr

/-- The conditions of MEMO-STATE (R128). -/
inductive MemoCondition
  | none
  | full (tail : Nat)
  | discarded (blocks : Nat) (cause : Reason)
deriving DecidableEq, Repr

/-- One destination of a PATH-RESULT (R66). -/
structure DestResult where
  dest : Nat
  admitted : Nat
  held : Nat
  refused : Nat
  removed : Nat
  overflow : Nat
deriving DecidableEq, Repr

/-- The events (R196). -/
inductive Event
  /-- `detail` is the organisation code heard (MISMATCH) or the cause 1–4 (SILENCED) -/
  | lineState (old new : LineState) (detail : Option Nat)
  | peerChange (station : Nat) (present : Bool) (stamp : Option Nat)
  | laneWait (source : Nat)
  | keyRefused (key : Nat) (reason : KeyRefusal)
  | pathResult (tag serial source : Nat) (closedEarly : Bool) (results : List DestResult)
  | pathChange (tag listener feed dest : Nat) (state : ItemState) (reason : Reason)
  | callIn (feed caller key : Nat) (urgent : Bool) (dest : Nat)
  | callAcked (key station feed : Nat)
  | callExpired (feed caller key : Nat) (cause : CallCause)
  | tallyChange (feed : Nat) (onAir : Bool) (origin dest : Nat) (cause : TallyCause)
  | cueExpired (clock feed origin dest : Nat) (absent : Bool)
  | cueRefused (feed origin dest seconds : Nat)
  | memoState (feed talker source : Nat) (condition : MemoCondition)
  | fieldState (channel : Nat) (old new : ChanState) (expected : Nat) (cause : FieldCause)
  | overflow (count : Nat)
deriving DecidableEq, Repr

/-- The reasons of REFUSED responses (R211). -/
inductive RefuseReason
  | state | busy | arg | queue | full | badStrap | badKey | badDest | dupDest | badLevel | floorOrder | memoSize
  | badFeed | badRange
deriving DecidableEq, Repr

/-- The item at which START's validation stopped (R192). -/
inductive StartItem
  | straps | station | source (n : Nat) | key (n : Nat) | feed (n : Nat) | memo (n : Nat)
deriving DecidableEq, Repr

/-- A field of a QUERY record (R209): its size in bytes, and its value or absent. -/
structure QField where
  size : Nat
  value : Option Nat
deriving DecidableEq, Repr

/-- A response (R189, R209). -/
inductive Response
  | accepted
  | refused (reason : RefuseReason) (item : Option StartItem)
  | record (fields : List QField)
  | empty
  | event (behind : Nat) (e : Event)
deriving DecidableEq, Repr

/-- The control port (R201). -/
structure Cp where
  config : Option Configuration
  /-- oldest first -/
  events : List Event
  response : Option Response
  /-- the head of the event queue is the event of the response being returned (R197) -/
  reading : Bool
deriving DecidableEq, Repr

/-! ### The station -/

/-- A step of an opening that is due and left to be taken apart (log 4). -/
inductive Due
  | debounce (key : Nat)
  | presence
  | peer (station : Nat)
  | lane (lane : Nat)
  | claim (lane : Nat)
  | retire
  | refresh (dest : Nat)
  | defer (feed talker source : Nat)
  | onAir (feed origin dest : Nat)
  | callRepeat (feed caller key : Nat)
  | callExpiry (feed caller key : Nat)
  /-- the request that the test of this clock's count sends, with the feed and the pattern that the test found (R163) -/
  | cueTone (clock feed : Nat) (pattern : Pattern)
  | cueZero (clock : Nat)
  | tonePhase (feed : Nat)
  | hang (source : Nat)
  | leaving
  | fieldLoss (channel : Nat)
  | runCount
deriving DecidableEq, Repr

/-- The kind of a due step. -/
def Due.kind : Due → DueKind
  | .debounce _ => .debounce
  | .presence => .presence
  | .peer _ => .peer
  | .lane _ => .lane
  | .claim _ => .claim
  | .retire => .retire
  | .refresh _ => .refresh
  | .defer _ _ _ => .defer
  | .onAir _ _ _ => .onAir
  | .callRepeat _ _ _ => .callRepeat
  | .callExpiry _ _ _ => .callExpiry
  | .cueTone _ _ _ => .cueTone
  | .cueZero _ => .cueZero
  | .tonePhase _ => .tonePhase
  | .hang _ => .hang
  | .leaving => .leaving
  | .fieldLoss _ => .fieldLoss
  | .runCount => .runCount

/-- The state of the station, and the queue of waiting commands. -/
structure State where
  li : LineIf
  plt : Plt
  ku : Ku
  tru : Tru
  cia : Cia
  mu : Mu
  mx : Mx
  vd : Vd
  tcu : Tcu
  fb : Fb
  cp : Cp
  /-- due steps that the last opening left to be taken apart -/
  owed : List Due
  /-- the commands that wait, first in first out -/
  pending : List Instr
deriving DecidableEq, Repr

/-- L (R1, R186): 16 for FINE (code 1), 24 for DENSE (code 2); the other codes name no organisation, and no lane. -/
def lanesOf (org : Nat) : Nat :=
  match org with
  | 1 => 16
  | 2 => 24
  | _ => 0

/-- The line interface after hardware reset with these strap readings (R20). -/
def LineIf.rest (number org : Nat) : LineIf where
  lineState := .offline
  strapNumber := number
  strapOrg := org
  marker := false
  holdoff := none
  interval := none
  runCount := 0
  queue := []
  sentThisCycle := false
  joinStamp := none
  micros := 0
  markStart := 0
  leavingCount := 0
  activeCycles := 0
  driving := none

/-- The peer and lane table after hardware reset (R41). -/
def Plt.rest (org : Nat) : Plt where
  peers := List.replicate 62 Peer.gone
  lanes := List.replicate (lanesOf org) .free
  sources := List.replicate 5 ⟨false, .idle, false⟩

/-- The key unit after hardware reset (R43). -/
def Ku.rest : Ku := ⟨List.replicate 12 Key.rest⟩

/-- The talk request unit after hardware reset (R79). -/
def Tru.rest : Tru := ⟨List.replicate 14 none, 0, [], List.replicate 4 false, List.replicate 12 none, []⟩

/-- The cut-in arbiter after hardware reset (R108). -/
def Cia.rest : Cia := ⟨List.replicate 6 Feed.rest⟩

/-- The memo unit after hardware reset (R126). -/
def Mu.rest : Mu := ⟨List.replicate 4 Channel.rest⟩

/-- The mix engine after hardware reset (R148). The input run before its first samples holds zeros: DESIGN CHOICE (log 3). -/
def Mx.rest : Mx :=
  ⟨0, List.replicate 24 none, List.replicate 6 Mix.rest, List.replicate 4 0, zeroBlock, zeroBlock⟩

/-- The voice detector after hardware reset (R155). The input runs hold zeros: DESIGN CHOICE (log 3). -/
def Vd.rest : Vd := ⟨List.replicate 4 Vox.rest, zeroBlock, zeroBlock⟩

/-- The tone and cue unit after hardware reset (R159, R165). -/
def Tcu.rest : Tcu := ⟨List.replicate 6 none, List.replicate 4 none⟩

/-- The field bridge after hardware reset (R184). -/
def Fb.rest : Fb := ⟨List.replicate 2 Chan.rest, 0, false, 0, 0, [], [], none, none, 0⟩

/-- The control port after hardware reset (R201). -/
def Cp.rest : Cp := ⟨none, [], none, false⟩

/-- The station after a hardware reset that reads these straps (R187). -/
def State.resetWith (number org : Nat) : State where
  li := LineIf.rest number org
  plt := Plt.rest org
  ku := Ku.rest
  tru := Tru.rest
  cia := Cia.rest
  mu := Mu.rest
  mx := Mx.rest
  vd := Vd.rest
  tcu := Tcu.rest
  fb := Fb.rest
  cp := Cp.rest
  owed := []
  pending := []

/-- The station right after hardware reset. The straps are an input, read at reset: DESIGN CHOICE station number 1 and
FINE (log 2); HARDWARE_RESET reads any others. -/
def State.reset : State := State.resetWith 1 1

end Sys2Proof.Machine
end

