-- ==== Sys2Proof/Machine/Ops.lean ====
section
/-! DEFINITION. The operations every block shares: sample arithmetic, readers and writers of the state, raising an event, and
offering to and withdrawing from the outbound message queue. -/

namespace Sys2Proof.Machine

/-! ### Samples (R138, R142) -/

/-- Clamp to a range. -/
def clampTo (lo hi x : Int) : Int := if x < lo then lo else if hi < x then hi else x

/-- Clamp to 24 bits. -/
def clamp24 (x : Int) : Sample := clampTo (-8388608) 8388607 x

/-- Narrowing: floor((x + 128) / 256), clamped to 16 bits (R39, R138). -/
def narrow (x : Sample) : Sample := clampTo (-32768) 32767 ((x + 128) / 256)

/-- Widening by 256 (R138). -/
def widen (x : Sample) : Sample := x * 256

/-- Exactly 48 samples: a longer list is cut, a shorter one is continued with zeros. -/
def toBlock (b : List Sample) : Block := (b ++ zeroBlock).take 48

/-- The 48 most recent samples of an input after one more (R135, R150). -/
def pushSample (run : List Sample) (x : Sample) : List Sample :=
  let r := run ++ [x]
  r.drop (r.length - 48)

/-- Counts that stop at 65535 (R111, R167, R199). -/
def bump (n : Nat) : Nat := min (n + 1) 65535

/-! ### Codes -/

/-- The code of an item's state (R205). -/
def ItemState.code : ItemState → Nat
  | .admitted => 0
  | .held => 1
  | .refused => 2
  | .removed => 3

/-- The item state of a code. -/
def ItemState.ofCode (n : Nat) : ItemState :=
  match n with
  | 0 => .admitted
  | 1 => .held
  | 2 => .refused
  | _ => .removed

/-- The code of a reason (R205). -/
def Reason.code : Reason → Nat
  | .none => 0
  | .promoted => 1
  | .setBack => 2
  | .expired => 3
  | .floor => 4
  | .full => 5

/-- The reason of a code. -/
def Reason.ofCode (n : Nat) : Reason :=
  match n with
  | 1 => .promoted
  | 2 => .setBack
  | 3 => .expired
  | 4 => .floor
  | 5 => .full
  | _ => .none

/-! ### Readers -/

/-- The stored configuration; nothing in use where none is stored. -/
def State.cfg (s : State) : Configuration := s.cp.config.getD Configuration.absent

/-- The settings of key `k`. -/
def State.keyCfg (s : State) (k : Nat) : KeyCfg := s.cfg.keys.getD k KeyCfg.absent

/-- The settings of feed `i`. -/
def State.feedCfg (s : State) (i : Nat) : FeedCfg := s.cfg.feeds.getD i FeedCfg.absent

/-- The settings of memo channel `c`. -/
def State.memoCfg (s : State) (c : Nat) : MemoCfg := s.cfg.memos.getD c MemoCfg.absent

/-- The detector settings of source `n`. -/
def State.sourceCfg (s : State) (n : Nat) : SourceCfg := s.cfg.sources.getD n SourceCfg.absent

/-- The open-talk settings of field channel `c`: S2 for channel A, S3 for channel B. -/
def State.openTalkCfg (s : State) (c : Nat) : OpenTalkCfg := s.cfg.openTalk.getD c OpenTalkCfg.absent

/-- The station number N. -/
def State.number (s : State) : Nat := s.li.strapNumber

/-- L of R1. -/
def State.laneCount (s : State) : Nat := lanesOf s.li.strapOrg

/-- Whether the organisation is FINE (R204). -/
def State.fine (s : State) : Bool := s.li.strapOrg == 1

/-- The line state is ACTIVE. -/
def State.active (s : State) : Bool := s.li.lineState == .active

/-- The line state is LISTENING. -/
def State.listening (s : State) : Bool := s.li.lineState == .listening

/-- The line state is LEAVING. -/
def State.leaving (s : State) : Bool := s.li.lineState == .leaving

/-- The line state is OFFLINE. -/
def State.offline (s : State) : Bool := s.li.lineState == .offline

/-- LISTENING or ACTIVE: the states in which the table takes what is heard (R22). -/
def State.hears (s : State) : Bool := s.listening || s.active

/-- The peer entry of a station number. -/
def State.peer (s : State) (n : Nat) : Peer := s.plt.peers.getD (n - 1) Peer.gone

/-- The record of lane `l`. -/
def State.lane (s : State) (l : Nat) : Lane := s.plt.lanes.getD l .free

/-- The lane record of a source. -/
def State.source (s : State) (n : Nat) : SourceRec := s.plt.sources.getD n ⟨false, .idle, false⟩

/-- The dynamic record of a key. -/
def State.key (s : State) (k : Nat) : Key := s.ku.keys.getD k Key.rest

/-- The path record of a tag. -/
def State.path (s : State) (g : Nat) : Option Path := s.tru.paths.getD g none

/-- The call-origination record of a key. -/
def State.callOrigin (s : State) (k : Nat) : Option CallOrigin := s.tru.calls.getD k none

/-- The arbiter's record of a feed. -/
def State.feed (s : State) (i : Nat) : Feed := s.cia.feeds.getD i Feed.rest

/-- A memo channel. -/
def State.channel (s : State) (c : Nat) : Channel := s.mu.channels.getD c Channel.rest

/-- The mix record of a feed. -/
def State.mix (s : State) (i : Nat) : Mix := s.mx.mixes.getD i Mix.rest

/-- The detector's record of a source. -/
def State.vox (s : State) (n : Nat) : Vox := s.vd.sources.getD n Vox.rest

/-- The tone slot of a feed. -/
def State.tone (s : State) (i : Nat) : Option Tone := s.tcu.slots.getD i none

/-- A cue clock. -/
def State.clock (s : State) (c : Nat) : Option Clock := s.tcu.clocks.getD c none

/-- A field channel. -/
def State.chan (s : State) (c : Nat) : Chan := s.fb.chans.getD c Chan.rest

/-! ### Writers: each changes one record of one block -/

/-- Change the line interface. -/
def State.modLi (s : State) (f : LineIf → LineIf) : State := { s with li := f s.li }

/-- Change a peer entry. -/
def State.modPeer (s : State) (n : Nat) (f : Peer → Peer) : State :=
  { s with plt := { s.plt with peers := s.plt.peers.modify (n - 1) f } }

/-- Write a lane record. -/
def State.setLane (s : State) (l : Nat) (r : Lane) : State :=
  { s with plt := { s.plt with lanes := s.plt.lanes.set l r } }

/-- Change a source lane record. -/
def State.modSource (s : State) (n : Nat) (f : SourceRec → SourceRec) : State :=
  { s with plt := { s.plt with sources := s.plt.sources.modify n f } }

/-- Change a key's record. -/
def State.modKey (s : State) (k : Nat) (f : Key → Key) : State :=
  { s with ku := { s.ku with keys := s.ku.keys.modify k f } }

/-- Change the talk request unit. -/
def State.modTru (s : State) (f : Tru → Tru) : State := { s with tru := f s.tru }

/-- Write a path record. -/
def State.setPath (s : State) (g : Nat) (p : Option Path) : State :=
  { s with tru := { s.tru with paths := s.tru.paths.set g p } }

/-- Change a feed's record. -/
def State.modFeed (s : State) (i : Nat) (f : Feed → Feed) : State :=
  { s with cia := { s.cia with feeds := s.cia.feeds.modify i f } }

/-- Change a memo channel. -/
def State.modChannel (s : State) (c : Nat) (f : Channel → Channel) : State :=
  { s with mu := { s.mu with channels := s.mu.channels.modify c f } }

/-- Change the mix engine. -/
def State.modMx (s : State) (f : Mx → Mx) : State := { s with mx := f s.mx }

/-- Change a feed's mix record. -/
def State.modMix (s : State) (i : Nat) (f : Mix → Mix) : State :=
  { s with mx := { s.mx with mixes := s.mx.mixes.modify i f } }

/-- Change a detector record. -/
def State.modVox (s : State) (n : Nat) (f : Vox → Vox) : State :=
  { s with vd := { s.vd with sources := s.vd.sources.modify n f } }

/-- Write a tone slot. -/
def State.setTone (s : State) (i : Nat) (t : Option Tone) : State :=
  { s with tcu := { s.tcu with slots := s.tcu.slots.set i t } }

/-- Write a cue clock. -/
def State.setClock (s : State) (c : Nat) (k : Option Clock) : State :=
  { s with tcu := { s.tcu with clocks := s.tcu.clocks.set c k } }

/-- Change the field bridge. -/
def State.modFb (s : State) (f : Fb → Fb) : State := { s with fb := f s.fb }

/-- Change a field channel. -/
def State.modChan (s : State) (c : Nat) (f : Chan → Chan) : State :=
  { s with fb := { s.fb with chans := s.fb.chans.modify c f } }

/-- Change the control port. -/
def State.modCp (s : State) (f : Cp → Cp) : State := { s with cp := f s.cp }

/-! ### Events (R198, R199) -/

/-- The queue after an arriving event: appended while the queue holds 30 entries or fewer; else counted in the newest entry if
that is an OVERFLOW, or replaced by an OVERFLOW of count 1 (R199). -/
def appendEvent (q : List Event) (e : Event) : List Event :=
  if q.length < eventPlaces - 1 then q ++ [e]
  else
    match q.getLast? with
    | some (.overflow n) => q.dropLast ++ [.overflow (bump n)]
    | _ => if q.length < eventPlaces then q ++ [.overflow 1] else q

/-- Raise an event. -/
def State.raise (s : State) (e : Event) : State :=
  { s with cp := { s.cp with events := appendEvent s.cp.events e } }

/-! ### The outbound message queue (R15–R18) -/

/-- Whether the queue admits a message: in ACTIVE by its class; in LEAVING the TALK-CLOSEs alone; else never (R16). -/
def State.admits (s : State) (m : Message) : Bool :=
  match s.li.lineState with
  | .active => decide (s.li.queue.length < if m.reply then queuePlaces else openPlaces)
  | .leaving => m.kindCode == 4 && decide (s.li.queue.length < queuePlaces)
  | _ => false

/-- Insert by urgency, highest first, behind those of equal urgency (R16). -/
def insertMsg (m : Message) : List OutMsg → List OutMsg
  | [] => [⟨m, false, none⟩]
  | x :: xs => if m.urgency ≤ x.msg.urgency then x :: insertMsg m xs else ⟨m, false, none⟩ :: x :: xs

/-- Offer a message: admitted in its place, or not admitted and the queue unchanged (R16, R17). Whether it was admitted is
`s.admits m`. -/
def State.offer (s : State) (m : Message) : State :=
  if s.admits m then s.modLi fun li => { li with queue := insertMsg m li.queue } else s

/-- The withdrawal that a locked message waits with: the loss of a lane and a new pick leave an earlier close or end of need in
force. -/
def laterDrop (old : Option Withdrawal) (w : Withdrawal) : Option Withdrawal :=
  match w, old with
  | .laneLost, some o => some o
  | .repick, some o => some o
  | w, _ => some w

/-- Withdraw the messages that satisfy `p`: one that is not locked is removed, one that is locked waits for the outcome of its
slot (R18). -/
def withdrawFrom (p : Message → Bool) (w : Withdrawal) (q : List OutMsg) : List OutMsg :=
  q.filterMap fun o =>
    if p o.msg then (if o.locked then some { o with drop := laterDrop o.drop w } else none) else some o

/-- Withdraw from the outbound message queue. -/
def State.withdraw (s : State) (p : Message → Bool) (w : Withdrawal) : State :=
  s.modLi fun li => { li with queue := withdrawFrom p w li.queue }

/-- Whether a message that satisfies `p` is locked in a slot. -/
def State.lockedMsg (s : State) (p : Message → Bool) : Bool := s.li.queue.any fun o => o.locked && p o.msg

/-- Whether a message that satisfies `p` stands in the queue. -/
def State.queued (s : State) (p : Message → Bool) : Bool := s.li.queue.any fun o => p o.msg

/-- A LANE-CLAIM of source `n`. -/
def isClaimOf (n : Nat) : Message → Bool
  | .laneClaim _ src => src == n
  | _ => false

/-- A TALK-OPEN of tag `g` without the re-announce flag. -/
def isOpenOf (g : Nat) : Message → Bool
  | .talkOpen m => m.tag == g && !m.reannounce
  | _ => false

/-- A TALK-OPEN of tag `g` with the re-announce flag. -/
def isReannounceOf (g : Nat) : Message → Bool
  | .talkOpen m => m.tag == g && m.reannounce
  | _ => false

/-- A TALK-MOVE of source `n`. -/
def isMoveOf (n : Nat) : Message → Bool
  | .talkMove src _ => src == n
  | _ => false

/-- A TALK-CLOSE. -/
def isClose : Message → Bool
  | .talkClose _ _ => true
  | _ => false

/-- Time passes up to a microsecond count, if that lies ahead (log 1). -/
def State.passTo (s : State) (t : Nat) : State := s.modLi fun li => { li with micros := max li.micros t }

/-- The notice line: high while the event queue holds an entry (R200). -/
def State.notice (s : State) : Bool := !s.cp.events.isEmpty

end Sys2Proof.Machine
end

