-- ==== Sys2Proof/Machine/Operands.lean ====
section
/-! DEFINITION. What a heard item's operands are worth before any block acts on it: the malformed messages, marks and slots of
R208, and the decode of a destination list against a feed (R55, R57). -/

namespace Sys2Proof.Machine

/-- A station field that is no station number: 0 or 63 (R208). -/
def badStation (n : Nat) : Bool := n == 0 || decide (62 < n)

/-- A destination that no feed answers: 0 or 63, or beyond a byte (R55). -/
def badDest (d : Nat) : Bool := d == 0 || d == 63 || decide (255 < d)

/-- A destination count of 0 or above 4, or a destination of 0 or 63 (R208). -/
def badDests (ds : List Nat) : Bool := ds.isEmpty || decide (4 < ds.length) || ds.any badDest

/-- A level that is none of 1–7 (R208). -/
def badLevel (l : Nat) : Bool := l == 0 || decide (7 < l)

/-- The envelope of a message of kind code `kind` with a body of `length` bits is at fault (R208). -/
def badEnvelope (env : Envelope) (m : Message) : Bool :=
  decide (11 ≤ env.kind) || env.kind != m.kindCode || env.urgencyCode != 7 - m.urgency
    || env.bodyLength != m.bodyLength || badStation env.sender

/-- The body is at fault, for a station whose lane count is `lanes` (R208). -/
def badBody (lanes : Nat) : Message → Bool
  | .presence _ _ _ programme => decide (8 < programme)
  | .laneClaim lane source => decide (4 < source) || decide (lanes ≤ lane)
  | .talkOpen m =>
    badDests m.dests || badLevel m.level || decide (3 < m.source) || decide (13 < m.tag) || decide (lanes ≤ m.lane)
  | .talkMove source lane => decide (3 < source) || decide (lanes ≤ lane)
  | .talkClose source tag => decide (3 < source) || decide (13 < tag)
  | .answer talker tag _ items =>
    badStation talker || decide (13 < tag) || items.isEmpty || decide (6 < items.length)
      || items.any fun w => badDest w.dest || decide (5 < w.feed) || decide (5 < w.reason)
  | .feedNotice feed talker source state reason =>
    decide (5 < feed) || badStation talker || decide (3 < source) || decide (5 < reason) || state == 2 || reason == 0
  | .call key _ dests => decide (11 < key) || badDests dests
  | .callAck caller feed key => badStation caller || decide (5 < feed) || decide (11 < key)
  | .tally dest _ => badDest dest
  | .cue dest _ _ => badDest dest

/-- A message is malformed (R208). -/
def malformed (lanes : Nat) (env : Envelope) (m : Message) : Bool := badEnvelope env m || badBody lanes m

/-- A mark that counts as a mark with a good check (R208). -/
def goodMark (m : HeardMark) : Bool := m.good && !badStation m.number

/-- A lane slot that counts as a slot with a good check (R208). -/
def goodSlot (good : Bool) (t : Slot) : Bool :=
  good && !badStation t.holder && decide (t.source ≤ 4) && decide (t.programme ≤ 8) && (t.programme == 0 || t.source == 4)

/-- Whether a feed with these settings answers a destination, at station `number` (R57). A feed of type NONE answers none (R81). -/
def answers (number : Nat) (c : FeedCfg) (d : Nat) : Bool :=
  c.type != 0 &&
    ((decide (1 ≤ d ∧ d ≤ 62) && d == number && c.home)
      || (decide (64 ≤ d ∧ d ≤ 254) && c.dests.contains d)
      || (d == 255 && c.allCall))

/-- The matched destination: the first of the list that the feed answers (R57). -/
def matchedDest (number : Nat) (c : FeedCfg) (dests : List Nat) : Option Nat := dests.find? (answers number c)

/-- The matched destination of feed `i` for a list. -/
def State.matched (s : State) (i : Nat) (dests : List Nat) : Option Nat :=
  matchedDest s.number (s.feedCfg i) dests

end Sys2Proof.Machine
end

