-- ==== Sys2Proof/Machine/Flags.lean ====
section
/-! DEFINITION. What is read off a feed's record rather than stored: the current level, the exclusive flag, the effective floor,
the audible entries, rank and place (R82, R83, R86, R136). -/

namespace Sys2Proof.Machine

/-- EARPIECE and RETURN feeds are CUT-IN feeds; SPEAKER feeds are MIX feeds (R81). -/
def mixingFeed (c : FeedCfg) : Bool := c.type == 2

/-- A feed is in use when its type is not NONE (R81). -/
def usedFeed (c : FeedCfg) : Bool := c.type != 0

/-- The level of the top entry, 0 when the stack is empty (R86). -/
def Feed.currentLevel (f : Feed) : Nat := (f.stack.getLast?.map Entry.level).getD 0

/-- A level-7 entry is admitted (R81). -/
def Feed.exclusive (f : Feed) : Bool := f.admitted.any fun e => e.level == 7

/-- The feed is on air while it holds an on-air record (R83). -/
def Feed.isOnAir (f : Feed) : Bool := !f.onAir.isEmpty

/-- The effective floor (R83). -/
def effectiveFloor (c : FeedCfg) (f : Feed) : Nat := if f.isOnAir then c.onAirFloor else c.floor

/-- An entry without a tag is draining (R94). -/
def Entry.draining (e : Entry) : Bool := e.tags.isEmpty

/-- An entry wants memo when any of its tags has the memo flag set (R82). -/
def Entry.wantsMemo (e : Entry) : Bool := e.tags.any EntryTag.memo

/-- The highest level among the tags; without tags the level keeps its value (R82). -/
def Entry.tagLevel (e : Entry) : Nat :=
  if e.tags.isEmpty then e.level else e.tags.foldl (fun m t => max m t.level) 0

/-- An entry is the feed's record of this talker and source (R82, R85). -/
def Entry.isFor (t src : Nat) (e : Entry) : Bool := e.talker == t && e.source == src

/-- One entry ranks above another: higher level, or equal levels and the lower arrival number (R82). -/
def Entry.above (a b : Entry) : Bool := decide (b.level < a.level) || (a.level == b.level && decide (a.arrival < b.arrival))

/-- All entries of a feed: the stack, the admitted set, the deferred list. -/
def Feed.entries (f : Feed) : List Entry := f.stack ++ f.admitted ++ f.deferred

/-- The feed's entry for a talker and source. -/
def Feed.find (f : Feed) (t src : Nat) : Option Entry := f.entries.find? (Entry.isFor t src)

/-- The places of R93. -/
inductive Place
  | top | suspended | held | admitted
deriving DecidableEq, Repr

/-- The place of the entry for a talker and source. -/
def Feed.place (f : Feed) (t src : Nat) : Option Place :=
  if f.stack.getLast?.any (Entry.isFor t src) then some .top
  else if f.stack.any (Entry.isFor t src) then some .suspended
  else if f.admitted.any (Entry.isFor t src) then some .admitted
  else if f.deferred.any (Entry.isFor t src) then some .held
  else none

/-- The audible entries: the top of the stack, or the admitted set, reduced to the level-7 entry while exclusive (R136). -/
def audible (mixing : Bool) (f : Feed) : List Entry :=
  if mixing then
    if f.exclusive then f.admitted.filter fun e => e.level == 7 else f.admitted
  else f.stack.getLast?.toList

/-- An entry of the feed is audible (R82). -/
def isAudible (mixing : Bool) (f : Feed) (e : Entry) : Bool := (audible mixing f).any (Entry.isFor e.talker e.source)

/-- Change the entry for a talker and source, wherever it stands. -/
def Feed.modEntry (f : Feed) (t src : Nat) (g : Entry → Entry) : Feed :=
  let one := fun e => if Entry.isFor t src e then g e else e
  { f with stack := f.stack.map one, admitted := f.admitted.map one, deferred := f.deferred.map one }

/-- Take the entry for a talker and source out of its place. -/
def Feed.without (f : Feed) (t src : Nat) : Feed :=
  let keep := fun e => !Entry.isFor t src e
  { f with stack := f.stack.filter keep, admitted := f.admitted.filter keep, deferred := f.deferred.filter keep }

/-- Insert by rank (R88). -/
def insertByRank (e : Entry) : List Entry → List Entry
  | [] => [e]
  | x :: xs => if Entry.above e x then e :: x :: xs else x :: insertByRank e xs

/-- Insert by arrival number: the admitted set is kept in arrival order (R109). -/
def insertByArrival (e : Entry) : List Entry → List Entry
  | [] => [e]
  | x :: xs => if e.arrival < x.arrival then e :: x :: xs else x :: insertByArrival e xs

/-- The lowest-ranked entry of a group (R82). -/
def lowestRanked : List Entry → Option Entry
  | [] => none
  | x :: xs =>
    match lowestRanked xs with
    | none => some x
    | some y => if Entry.above x y then some y else some x

/-- The feed's arrival number for a new entry, and the feed after it; when the counter would pass 65535 the entries are first
renumbered in the order of their arrival numbers (R82). -/
def Feed.takeArrival (f : Feed) : Nat × Feed :=
  if f.arrival < 65535 then (f.arrival, { f with arrival := f.arrival + 1 })
  else
    let all := f.entries
    let renumber := fun e : Entry => { e with arrival := (all.filter fun x => decide (x.arrival < e.arrival)).length }
    let n := all.length
    (n, { f with
      stack := f.stack.map renumber
      admitted := f.admitted.map renumber
      deferred := f.deferred.map renumber
      arrival := n + 1 })

end Sys2Proof.Machine
end

