-- ==== Sys2Proof/Machine/Peers.lean ====
section
/-! DEFINITION. The peer and lane table: refreshing a peer (R22, R23), lane need, picking and claiming (R28–R38), collisions (R37),
and the programme lookup (R40). -/

namespace Sys2Proof.Machine

/-! ### Picking a lane (R32, R36) -/

/-- Another own source has picked lane `l` as PENDING. -/
def State.pickedByOther (s : State) (n l : Nat) : Bool :=
  (List.range 5).any fun k => k != n && (s.source k).phase == .pending l

/-- The lowest-numbered lane that is FREE and that no other own source has picked (R32). -/
def State.freeLane (s : State) (n : Nat) : Option Nat :=
  (List.range s.plt.lanes.length).find? fun l => s.lane l == .free && !s.pickedByOther n l

/-- Source `n` picks a lane: it records it, enters PENDING and offers a LANE-CLAIM; with no lane to pick it enters WAITING and, if
it was not waiting, raises LANE-WAIT (R32, R36). -/
def State.pick (s : State) (n : Nat) : State :=
  match s.freeLane n with
  | some l => (s.modSource n fun r => { r with phase := .pending l }).offer (.laneClaim l n)
  | none =>
    if (s.source n).phase == .waiting then s
    else (s.modSource n fun r => { r with phase := .waiting }).raise (.laneWait n)

/-- One source of the lane-freed step. -/
def State.serveWaiting (s : State) (n : Nat) : State :=
  if (s.source n).phase == .waiting && (s.freeLane n).isSome then s.pick n else s

/-- The lane-freed step, in the order S0 to S4; it does not run in LEAVING (R31, R36). -/
def State.laneFreed (s : State) : State :=
  if s.active then (List.range 5).foldl State.serveWaiting s else s

/-- The LANE-CLAIM of source `n` for lane `l`. -/
def isClaim (n l : Nat) (m : Message) : Bool := m == .laneClaim l n

/-- A place of the queue holds the standing claim of source `n` for lane `l`. A locked claim whose need has ended is abandoned (R38), and is no
claim of a source that has picked the lane anew. -/
def OutMsg.claims (n l : Nat) (o : OutMsg) : Bool := isClaim n l o.msg && o.drop != some .needEnd

/-- The claim of source `n` for lane `l` stands in the queue. -/
def State.claimQueued (s : State) (n l : Nat) : Bool := s.li.queue.any (OutMsg.claims n l)

/-- The claim of source `n` for lane `l` is locked in a slot (R18). -/
def State.claimLocked (s : State) (n l : Nat) : Bool := s.li.queue.any fun o => o.locked && o.claims n l

/-- Source `n` had picked lane `l`, which stopped being FREE: a queued claim is withdrawn and the source picks again at once; a
locked one waits for its outcome; with no queued claim the source picks again at the next opening (R32). -/
def State.repick (s : State) (n l : Nat) : State :=
  if (s.source n).phase == .pending l && s.claimQueued n l then
    let s' := s.withdraw (isClaim n l) .repick
    if s.claimLocked n l then s' else s'.pick n
  else s

/-- Lane `l` has turned HELD: every own source that had picked it picks again (R32). -/
def State.pickLost (s : State) (l : Nat) : State := (List.range 5).foldl (fun s n => s.repick n l) s

/-! ### Heard headers and claims (R28, R29) -/

/-- A slot header of a peer `x` is heard in lane `l` (R28). -/
def State.headerHeard (s : State) (l x source programme : Nat) : State :=
  let held : Lane := .held x source programme 0 true
  match s.lane l with
  | .free => (s.setLane l held).pickLost l
  | .held .. => s.setLane l held
  | .claiming n _ => (s.setLane l held).pick n
  | .mine _ => s

/-- A LANE-CLAIM of a peer `t` for lane `l` and source `source` is heard (R29). -/
def State.claimHeard (s : State) (t l source : Nat) : State :=
  match s.lane l with
  | .free => (s.setLane l (.held t source 0 0 false)).pickLost l
  | .held h src p _ seen =>
    if seen then
      if t = h then s.setLane l (.held h src p 0 true) else s
    else if t < h then s.setLane l (.held t source 0 0 false)
    else if t = h then s.setLane l (.held h source p 0 false)
    else s
  | .claiming n _ =>
    if t < s.number then (s.setLane l (.held t source 0 0 false)).pick n else s
  | .mine _ => s

/-! ### The own claim (R33, R35, R38) -/

/-- The own claim for lane `l` stands against its record (R33). -/
def State.claimStands (s : State) (l : Nat) : Bool :=
  match s.lane l with
  | .free => true
  | .held h _ _ _ seen => !seen && decide (s.number < h)
  | _ => false

/-- The sent-notice of the LANE-CLAIM of source `n` for lane `l` (R33). A claim whose source ended its need makes the lane CLAIMING
and is abandoned at once (R38); in LEAVING it is abandoned (R31). -/
def State.claimSent (s : State) (n l : Nat) (drop : Option Withdrawal) : State :=
  if !s.active || drop == some .leaving then s
  else if drop == some .needEnd then
    if s.claimStands l then (s.setLane l .free).laneFreed else s
  else if (s.source n).phase == .pending l then
    if s.claimStands l then
      (s.setLane l (.claiming n 0)).modSource n fun r => { r with phase := .claiming l }
    else s.pick n
  else s

/-- The need flag of source `n` is set; a source in phase NONE picks a lane in ACTIVE (R31). -/
def State.setNeed (s : State) (n : Nat) : State :=
  if (s.source n).need then s
  else
    let s' := s.modSource n fun r => { r with need := true }
    if s.active && (s.source n).phase == .idle then s'.pick n else s'

/-- The need flag of source `n` is cleared: the source returns to NONE and its lane is given up by its phase (R38). -/
def State.clearNeed (s : State) (n : Nat) : State :=
  if (s.source n).need then
    let s' := s.modSource n fun _ => ⟨false, .idle, false⟩
    match (s.source n).phase with
    | .idle => s'
    | .waiting => s'
    | .pending _ => (s'.withdraw (isClaimOf n) .needEnd).laneFreed
    | .claiming l => (s'.setLane l .free).laneFreed
    | .mine l => (s'.setLane l .free).laneFreed
  else s

/-- Set or clear a need flag (R177). -/
def State.writeNeed (s : State) (n : Nat) (need : Bool) : State := if need then s.setNeed n else s.clearNeed n

/-- On entry to LEAVING, sources in PENDING, CLAIMING or WAITING return to NONE with the moved flag clear, and a CLAIMING lane becomes
FREE (R31). -/
def State.leaveLanes (s : State) : State :=
  (List.range 5).foldl (fun s n =>
    match (s.source n).phase with
    | .waiting | .pending _ => s.modSource n fun r => { r with phase := .idle, moved := false }
    | .claiming l => (s.setLane l .free).modSource n fun r => { r with phase := .idle, moved := false }
    | _ => s) s

/-! ### Peers (R22–R24) -/

/-- The entry after an item of its station was heard (R22). -/
def Peer.heard (p : Peer) : Peer := if p.present then { p with age := 0 } else ⟨true, 0, none, false, 0⟩

/-- A mark, message or slot header of station `n` refreshes its entry; the own entry is kept. A change to PRESENT raises PEER-CHANGE in
ACTIVE (R22, R23). -/
def State.refreshPeer (s : State) (n : Nat) : State :=
  if n = s.number then s
  else
    let s' := s.modPeer n Peer.heard
    if !(s.peer n).present && s.active then s'.raise (.peerChange n true none) else s'

/-- Every lane HELD by station `n` becomes FREE, and the lane-freed step runs (R24). -/
def State.freeLanesOf (s : State) (n : Nat) : State :=
  let gone : Lane → Lane := fun r =>
    match r with
    | .held h _ _ _ _ => if h = n then .free else r
    | r => r
  State.laneFreed { s with plt := { s.plt with lanes := s.plt.lanes.map gone } }

/-! ### Programme lookup (R40) -/

/-- The holder of lane `l` as a candidate for programme `p`: a lane HELD with block-seen set that carries `p`, or the own S4 lane
when `p` is published. -/
def State.candidate (s : State) (p l : Nat) : Option Nat :=
  match s.lane l with
  | .held h _ q _ seen => if seen && q == p then some h else none
  | .mine n => if n == 4 && s.cfg.station.published == p then some s.number else none
  | _ => none

/-- Of two candidate lanes, given as holder and lane, the one with the lower holder, and of one holder the lower lane. -/
def betterLane (best : Option (Nat × Nat)) (c : Option Nat) (l : Nat) : Option (Nat × Nat) :=
  match c, best with
  | none, _ => best
  | some h, none => some (h, l)
  | some h, some (h', l') => if h < h' then some (h, l) else some (h', l')

/-- The lane chosen for programme `p` with its holder, or none: programme absent (R40). -/
def State.programmeLane (s : State) (p : Nat) : Option (Nat × Nat) :=
  (List.range s.plt.lanes.length).foldl (fun best l => betterLane best (s.candidate p l) l) none

end Sys2Proof.Machine
end

