-- ==== Sys2Proof/Machine/Requests.lean ====
section
/-! DEFINITION. The talk request unit: path records, the offering pass, closing, the outstanding request queue, answers and notices,
moves, re-announcement, and the origination of calls, tally and cue (R59–R80). -/

namespace Sys2Proof.Machine

/-! ### Path records (R59–R61) -/

/-- A new record in PREPARING (R60). -/
def Path.prepared (r : OpenReq) : Path :=
  ⟨.preparing, r, none, none, [], List.replicate r.dests.length 0, none, false, false⟩

/-- The records in ISSUED. -/
def State.issuedCount (s : State) : Nat :=
  (s.tru.paths.filter fun p => p.any fun q => q.state == .issued).length

/-- The TALK-OPEN of a record (R61, R72). -/
def openMessage (g : Nat) (p : Path) (serial lane : Nat) (reannounce : Bool) : Message :=
  .talkOpen ⟨p.req.source, g, serial, p.req.level, p.req.memo, reannounce, lane, p.req.dests⟩

/-- The MINE lane of a source. -/
def State.mineLane (s : State) (n : Nat) : Option Nat :=
  match (s.source n).phase with
  | .mine l => some l
  | _ => none

/-- One record of an offering pass (R61): offered when its source's lane is MINE, the reservation allows, and the queue admits its
TALK-OPEN. Not admitted, the serial is returned and the record stays PREPARING, its lane recorded (log 11). -/
def State.offerPath (s : State) (g : Nat) : State :=
  match s.path g with
  | some p =>
    match s.mineLane p.req.source with
    | some l =>
      if p.state == .preparing && decide (s.tru.outstanding.length + s.issuedCount < outstandingPlaces) then
        let m := openMessage g p s.tru.serial l false
        if s.admits m then
          ((s.setPath g (some { p with state := .issued, serial := some s.tru.serial, lane := some l })).modTru
            fun t => { t with serial := (t.serial + 1) % 256 }).offer m
        else s.setPath g (some { p with lane := some l })
      else s
    | none => s
  | none => s

/-- An offering pass, in tag order (R61). Records are opened in ACTIVE alone (R60). -/
def State.offeringPass (s : State) : State := if s.active then (List.range 14).foldl State.offerPath s else s

/-- Tag `g` belongs to source `n`. -/
def State.pathOf (s : State) (n g : Nat) : Bool := (s.path g).any fun p => p.req.source == n

/-- Source `n` has a path record. -/
def State.hasPath (s : State) (n : Nat) : Bool := (List.range 14).any (s.pathOf n)

/-- The need flag of S0 or S1 is cleared when the last record of the source is freed (R31). -/
def State.endNeed (s : State) (n : Nat) : State := if n ≤ 1 && !s.hasPath n then s.clearNeed n else s

/-- Create the record of an open in PREPARING, and set the need flag of S0 or S1 (R60). -/
def State.prepare (s : State) (g : Nat) (r : OpenReq) : State :=
  let s' := s.setPath g (some (Path.prepared r))
  if r.source ≤ 1 then s'.setNeed r.source else s'

/-- An open for tag `g` (R60). -/
def State.openPath (s : State) (g : Nat) (r : OpenReq) : State :=
  if s.active then
    match s.path g with
    | none => (s.prepare g r).offerPath g
    | some p => if p.state == .closing then s.setPath g (some { p with successor := some r }) else s
  else s

/-- Free the record of tag `g` (R63, R64). -/
def State.freePath (s : State) (g : Nat) : State :=
  match s.path g with
  | some p => (s.setPath g none).endNeed p.req.source
  | none => s

/-! ### Closing (R63, R64) -/

/-- A record enters CLOSING; its TALK-CLOSE is left to be offered later where `wait` (R63). -/
def Path.closing (p : Path) (wait : Bool) : Path :=
  { p with state := .closing, reannouncePending := false, closePending := wait }

/-- A re-announce of tag `g` is locked in a slot, in ACTIVE: the TALK-CLOSE of the tag waits for the outcome of that slot, so that a
re-announce that is sent goes out before the TALK-CLOSE is offered (R63, log 29). In LEAVING it does not wait (R10). -/
def State.closeWaits (s : State) (g : Nat) : Bool := s.active && s.lockedMsg (isReannounceOf g)

/-- The TALK-CLOSE of an OPEN record: its queued re-announces are withdrawn, the TALK-CLOSE is offered, and the record enters CLOSING,
with close pending where it is not admitted or has to wait (R63). -/
def State.closeOpened (s : State) (g : Nat) (p : Path) : State :=
  let s1 := s.withdraw (isReannounceOf g) .close
  if s1.closeWaits g then s1.setPath g (some (p.closing true))
  else
    let m := Message.talkClose p.req.source g
    (s1.setPath g (some (p.closing (!s1.admits m)))).offer m

/-- The TALK-CLOSE of a record with close pending is offered again: at an opening, and at the outcome of a slot that it waited for
(R63). -/
def State.retryClose (s : State) (g : Nat) : State :=
  match s.path g with
  | some p =>
    if p.state == .closing && p.closePending && !s.closeWaits g then
      let m := Message.talkClose p.req.source g
      (s.setPath g (some { p with closePending := !s.admits m })).offer m
    else s
  | none => s

/-- A close for tag `g` (R63). -/
def State.closePath (s : State) (g : Nat) : State :=
  match s.path g with
  | none => s
  | some p =>
    match p.state with
    | .preparing => s.freePath g
    | .issued =>
      let s' := s.withdraw (isOpenOf g) .close
      if s.lockedMsg (isOpenOf g) then s' else s'.freePath g
    | .opened => s.closeOpened g p
    | .closing => s.setPath g (some { p with successor := none })

/-- The sent-notice of a TALK-CLOSE (R64): the record is freed, its outstanding entry marked, a successor started, and the need flag
cleared where no record of the source is left. -/
def State.closeSent (s : State) (g : Nat) : State :=
  match s.path g with
  | some p =>
    if p.state == .closing then
      let mark := fun o : Outstanding =>
        if o.tag == g && p.serial == some o.serial then { o with closedEarly := true } else o
      let s1 := s.modTru fun t => { t with outstanding := t.outstanding.map mark }
      let s2 := s1.setPath g none
      match p.successor with
      | some r => ((s2.prepare g r).endNeed p.req.source).offeringPass
      | none => s2.endNeed p.req.source
    else s
  | none => s

/-! ### TALK-OPEN sent (R62, R65) -/

/-- The sent-notice of a TALK-OPEN without the re-announce flag, for the record and the outstanding queue (R62, R65). -/
def State.openSent (s : State) (m : TalkOpen) : State :=
  match s.path m.tag with
  | some p =>
    if p.state == .issued then
      (s.setPath m.tag (some { p with state := .opened })).modTru fun t =>
        { t with outstanding := t.outstanding ++
          [⟨m.tag, m.serial, p.req.source, p.req.dests, 0, false, [], List.replicate p.req.dests.length 0⟩] }
    else s
  | none => s

/-- The items of an answer list for one destination with one state. -/
def countItems (items : List Item) (d : Nat) (st : ItemState) : Nat :=
  (items.filter fun i => i.dest == d && i.state == st).length

/-- The report on one destination (R66). -/
def destResult (items : List Item) (d overflow : Nat) : DestResult :=
  ⟨d, countItems items d .admitted, countItems items d .held, countItems items d .refused,
    countItems items d .removed, overflow⟩

/-- The PATH-RESULT of an outstanding request entry (R66). -/
def Outstanding.result (o : Outstanding) : Event :=
  .pathResult o.tag o.serial o.source o.closedEarly
    ((o.dests.zip o.overflow).map fun (d, v) => destResult o.answers d v)

/-- The retirement of the entry at the head whose age has reached 16: PATH-RESULT is raised and the offering pass runs (R65, R66). -/
def State.retire (s : State) : State :=
  match s.tru.outstanding with
  | o :: rest =>
    if 16 ≤ o.age then
      ((s.modTru fun t => { t with outstanding := rest }).raise o.result).offeringPass
    else s
  | [] => s

/-! ### Answers and notices (R67–R69) -/

/-- Two items of one listener and feed. -/
def Item.sameFeed (a b : Item) : Bool := a.listener == b.listener && a.feed == b.feed

/-- Add 1, stopping at 255, to the overflow count of a destination (R67). -/
def bumpOverflow (dests counts : List Nat) (d : Nat) : List Nat :=
  (dests.zip counts).map fun (x, c) => if x == d then min (c + 1) 255 else c

/-- An item applied to an answer list and its overflow counts, for a path with these destinations (R67). -/
def applyItem (dests : List Nat) (list : List Item) (counts : List Nat) (i : Item) : List Item × List Nat :=
  if dests.contains i.dest then
    if list.any (Item.sameFeed i) then (list.map fun j => if Item.sameFeed i j then i else j, counts)
    else if list.length < answerPlaces then (list ++ [i], counts)
    else (list, bumpOverflow dests counts i.dest)
  else (list, counts)

/-- An item applied is a change: it adds an item, or gives a stored item another state or reason (R68). -/
def itemChanges (dests : List Nat) (list : List Item) (i : Item) : Bool :=
  dests.contains i.dest &&
    match list.find? (Item.sameFeed i) with
    | some j => j.state != i.state || j.reason != i.reason
    | none => decide (list.length < answerPlaces)

/-- An outstanding request entry of this tag and serial is in its window. -/
def State.inWindow (s : State) (g serial : Nat) : Bool :=
  s.tru.outstanding.any fun o => o.tag == g && o.serial == serial

/-- One item of an ANSWER for tag `g` with this serial, applied to the entry and to the OPEN record; outside the window a change raises
PATH-CHANGE (R67, R68). -/
def State.answerItem (g serial : Nat) (s : State) (i : Item) : State :=
  let take := fun o : Outstanding =>
    if o.tag == g && o.serial == serial then
      let r := applyItem o.dests o.answers o.overflow i
      { o with answers := r.1, overflow := r.2 }
    else o
  let s1 := s.modTru fun t => { t with outstanding := t.outstanding.map take }
  match s.path g with
  | some p =>
    if p.state == .opened && p.serial == some serial then
      let r := applyItem p.req.dests p.answers p.overflow i
      let s2 := s1.setPath g (some { p with answers := r.1, overflow := r.2 })
      if itemChanges p.req.dests p.answers i && !s.inWindow g serial then
        s2.raise (.pathChange g i.listener i.feed i.dest i.state i.reason)
      else s2
    else s1
  | none => s1

/-- An ANSWER from a listener naming this station (R67). Its items are applied in the order in which it carries them, where R67 gives none:
DESIGN CHOICE (log 31). -/
def State.answerHeard (s : State) (listener g serial : Nat) (items : List WireItem) : State :=
  items.foldl (fun s w =>
    s.answerItem g serial ⟨listener, w.feed, w.dest, ItemState.ofCode w.state, Reason.ofCode w.reason⟩) s

/-- A FEED-NOTICE applied to one tag (R69). -/
def State.noticeTag (listener feed source : Nat) (st : ItemState) (rs : Reason) (s : State) (g : Nat) : State :=
  let same := fun i : Item => i.listener == listener && i.feed == feed
  let write := fun i : Item => if same i then { i with state := st, reason := rs } else i
  match s.path g with
  | some p =>
    match p.answers.find? same, p.serial with
    | some j, some serial =>
      if p.state == .opened && p.req.source == source then
        let s1 := s.setPath g (some { p with answers := p.answers.map write })
        let take := fun o : Outstanding =>
          if o.tag == g && o.serial == serial then { o with answers := o.answers.map write } else o
        let s2 := s1.modTru fun t => { t with outstanding := t.outstanding.map take }
        if (j.state != st || j.reason != rs) && !s.inWindow g serial then
          s2.raise (.pathChange g listener feed j.dest st rs)
        else s2
      else s
    | _, _ => s
  | none => s

/-- A FEED-NOTICE naming this station as talker (R69). It is applied, and its PATH-CHANGEs are raised, in the order of the tags, where R69 gives
none: DESIGN CHOICE (log 31). -/
def State.noticeHeard (s : State) (listener feed source : Nat) (st : ItemState) (rs : Reason) : State :=
  (List.range 14).foldl (State.noticeTag listener feed source st rs) s

/-! ### Lanes of open paths (R70, R71) -/

/-- Mark or unmark a source as move pending (R71). -/
def State.markMove (s : State) (n : Nat) (b : Bool) : State :=
  s.modTru fun t => { t with movePending := t.movePending.set n b }

/-- One TALK-MOVE of source `n` to lane `l`; not admitted, the source is marked move pending (R71). -/
def State.offerMove (s : State) (n l : Nat) : State :=
  let m := Message.talkMove n l
  (s.markMove n (!s.admits m)).offer m

/-- An OPEN record of source `n` has a lane other than `l`. -/
def State.onOtherLane (s : State) (n l : Nat) : Bool :=
  (List.range 14).any fun g => (s.path g).any fun p => p.state == .opened && p.req.source == n && p.lane != some l

/-- The hand-over of MINE lane `l` for source `n`, as a lane-moved notice when `moved` (R34, R61, R71). S4 carries no paths. Of the
TALK-MOVE and the offering pass, for which the manual gives no order, the TALK-MOVE is taken first: DESIGN CHOICE (log 27). -/
def State.handOver (s : State) (n l : Nat) (moved : Bool) : State :=
  if 3 < n then s
  else (if moved || s.onOtherLane n l then s.offerMove n l else s).offeringPass

/-- The sent-notice of a TALK-MOVE: every OPEN record of the source takes its lane (R71). -/
def State.moveSent (s : State) (n l : Nat) : State :=
  let move := fun q : Path =>
    if q.state == .opened && q.req.source == n then { q with lane := some l } else q
  s.modTru fun t => { t with paths := t.paths.map (Option.map move) }

/-- One ISSUED record of a source that has lost its lane: its TALK-OPEN is withdrawn, and the record returns to PREPARING unless the
withdrawal has to wait (R70). -/
def State.unissue (n : Nat) (s : State) (g : Nat) : State :=
  match s.path g with
  | some p =>
    if p.state == .issued && p.req.source == n then
      let s' := s.withdraw (isOpenOf g) .laneLost
      if s.lockedMsg (isOpenOf g) then s'
      else s'.setPath g (some { p with state := .preparing, serial := none, lane := none })
    else s
  | none => s

/-- The source of paths loses its MINE lane (R70, R71). -/
def State.laneLost (s : State) (n : Nat) : State :=
  (List.range 14).foldl (State.unissue n) (s.withdraw (isMoveOf n) .laneLost)

/-! ### Re-announcement (R72, R77) -/

/-- One OPEN record offers its re-announce TALK-OPEN; not admitted, re-announce pending is set, and admitted, cleared (R72). -/
def State.reannounce (s : State) (g : Nat) : State :=
  match s.path g with
  | some p =>
    match p.state, p.serial, p.lane with
    | .opened, some serial, some lane =>
      let m := openMessage g p serial lane true
      (s.setPath g (some { p with reannouncePending := !s.admits m })).offer m
    | _, _, _ => s
  | none => s

/-- A tag's record has re-announce pending. -/
def State.reannouncePending (s : State) (g : Nat) : Bool := (s.path g).any Path.reannouncePending

/-- A listed destination is announced: TALLY(ON) is offered, and admitted it sets the refresh count to 0 (R76, R77). -/
def State.announceTally (s : State) (d : Nat) : State :=
  let m := Message.tally d true
  let zero := fun r : TallyOrigin => if r.dest == d then { r with refresh := 0 } else r
  if s.admits m then (s.modTru fun t => { t with tallies := t.tallies.map zero }).offer m else s

/-- A new PRESENCE from another station: OPEN records without re-announce pending in tag order, then the tally list (R27, R72, R77). -/
def State.reannounceAll (s : State) : State :=
  let s1 := (List.range 14).foldl (fun s g => if s.reannouncePending g then s else s.reannounce g) s
  (s.tru.tallies.map TallyOrigin.dest).foldl State.announceTally s1

/-! ### Calls (R73, R74) -/

/-- A call of key `k`; whether it is admitted is `s.admits` of the message (R73). -/
def callMessage (k : Nat) (c : KeyCfg) : Message := .call k c.callKind c.dests

/-- Write a call-origination record. -/
def State.setCall (s : State) (k : Nat) (c : CallOrigin) : State :=
  s.modTru fun t => { t with calls := t.calls.set k (some c) }

/-- A call from the key unit that the queue admits (R73). -/
def State.placeCall (s : State) (k : Nat) : State :=
  match s.callOrigin k with
  | some c => (s.setCall k ⟨.queued, c.unsent + 1⟩).offer (callMessage k (s.keyCfg k))
  | none => s

/-- The sent-notice of a CALL (R73). -/
def State.callSent (s : State) (k : Nat) : State :=
  match s.callOrigin k with
  | some c => s.setCall k ⟨if c.unsent ≤ 1 then .sent else .queued, c.unsent - 1⟩
  | none => s

/-- A CALL-ACK naming this station as caller (R74). -/
def State.ackHeard (s : State) (k station feed : Nat) : State :=
  match s.callOrigin k with
  | some c =>
    match c.state with
    | .idle => s
    | .queued => s.raise (.callAcked k station feed)
    | .sent | .acked => (s.setCall k { c with state := .acked }).raise (.callAcked k station feed)
  | none => s

end Sys2Proof.Machine
end

