-- ==== Sys2Proof/Machine/Memo.lean ====
section
/-! DEFINITION. The memo unit: binding, the state of a chain, storing and extending, freeing and discarding (R110–R124). The read pass
stands with the arbiter, whose entries it changes. -/

namespace Sys2Proof.Machine

/-- Change the arbiter's entry of feed `i` for a talker and source. -/
def State.modEntry (s : State) (i t src : Nat) (g : Entry → Entry) : State := s.modFeed i fun f => f.modEntry t src g

/-- The blocks of a chain (R111). -/
def State.chainFill (s : State) (chain : List Nat) : Nat := (chain.map fun c => (s.channel c).blocks.length).sum

/-- Every channel of a chain returns to IDLE (R122). -/
def State.freeChain (s : State) (chain : List Nat) : State :=
  chain.foldl (fun s c => s.modChannel c fun _ => Channel.rest) s

/-- The lowest-numbered IDLE channel (R112). -/
def State.idleChannel (s : State) : Option Nat := (List.range 4).find? fun c => (s.channel c).state == .idle

/-- A channel bound to an entry of feed `i` (R112). -/
def Channel.bound (i t src : Nat) (st : MemoState) : Channel := ⟨st, some ⟨i, t, src⟩, [], 0, false⟩

/-- The request of the arbiter for the entry of feed `i` for a talker and source: with no chain, the lowest IDLE channel is bound, or
MEMO-STATE NONE is raised (R89, R112). -/
def State.requestMemo (s : State) (i t src : Nat) : State :=
  match (s.feed i).find t src with
  | some e =>
    if e.wantsMemo && e.chain.isEmpty then
      match s.idleChannel with
      | some c => (s.modChannel c fun _ => Channel.bound i t src .capture).modEntry i t src fun e => { e with chain := [c] }
      | none => s.raise (.memoState i t src .none)
    else s
  | none => s

/-- The state of a chain by its entry's place (R113). A chain that is not played is FULL after a lost block (R115). -/
def chainState (draining isHeard isHeld lostRun : Bool) : MemoState :=
  if draining then .drain
  else if isHeard then .play
  else if lostRun then .full
  else if isHeld then .capture
  else .pause

/-- The last block offered to a chain's tail was lost. -/
def State.lostRun (s : State) (chain : List Nat) : Bool := chain.getLast?.any fun c => (s.channel c).lostRun

/-- Write the state of one entry's chain (R113). -/
def State.syncEntry (i : Nat) (s : State) (e : Entry) : State :=
  let f := s.feed i
  let st := chainState e.draining (isAudible (mixingFeed (s.feedCfg i)) f e)
    (f.deferred.any (Entry.isFor e.talker e.source)) (s.lostRun e.chain)
  e.chain.foldl (fun s c => s.modChannel c fun ch => { ch with state := st }) s

/-- The chains of feed `i` take the states their entries' places give (R113). -/
def State.sync (s : State) (i : Nat) : State := (s.feed i).entries.foldl (State.syncEntry i) s

/-- Discard the chain of an entry of feed `i`; MEMO-STATE DISCARDED is raised when it held a block and the removal was not a release
(R122). -/
def State.discard (s : State) (i : Nat) (e : Entry) (cause : Option Reason) : State :=
  let n := s.chainFill e.chain
  let s' := s.freeChain e.chain
  match cause with
  | some r => if n = 0 then s' else s'.raise (.memoState i e.talker e.source (.discarded n r))
  | none => s'

/-- A lane block as memo stores it: 16 bits (R114). -/
def State.memoBlock (s : State) (b : Block) : Block := if s.fine then (toBlock b).map narrow else toBlock b

/-- Store a block at the end of a channel. -/
def Channel.store (ch : Channel) (b : Block) : Channel := { ch with blocks := ch.blocks ++ [b], lostRun := false }

/-- Store a block for the entry of feed `i` for a talker and source in its chain's tail, extending the chain into the next channel when
the tail is full and that is allowed and IDLE; else the block is lost (R114, R115). -/
def State.storeBlock (s : State) (i t src : Nat) (chain : List Nat) (b : Block) : State :=
  match chain.getLast? with
  | some c =>
    let ch := s.channel c
    if ch.blocks.length < (s.memoCfg c).capacity then s.modChannel c fun ch => ch.store b
    else if (s.memoCfg c).chain && decide (c < 3) && (s.channel (c + 1)).state == .idle then
      (s.modChannel (c + 1) fun _ => (Channel.bound i t src ch.state).store b).modEntry i t src
        fun e => { e with chain := e.chain ++ [c + 1] }
    else
      let s' := s.modChannel c fun ch => { ch with lost := bump ch.lost, lostRun := true }
      if ch.lostRun then s' else s'.raise (.memoState i t src (.full c))
  | none => s

/-- Capture of a heard slot of lane `l` in feed `i`: the entry of the slot's holder and source, when it records the lane and holds a tag
(R114). Other entries that record the lane skip the block. -/
def State.captureFeed (l : Nat) (t : Slot) (s : State) (i : Nat) : State :=
  match (s.feed i).find t.holder t.source with
  | some e =>
    if e.lane == l && !e.draining && !e.chain.isEmpty then
      (s.storeBlock i t.holder t.source e.chain (s.memoBlock t.samples)).sync i
    else s
  | none => s

/-- Memo capture of a heard slot: good check, quiet flag clear, each feed's own entry (R114, R124), F0 to F5, where R114 gives no order:
DESIGN CHOICE (log 31). -/
def State.capture (s : State) (l : Nat) (good : Bool) (t : Slot) : State :=
  if good && !t.quiet then (List.range 6).foldl (State.captureFeed l t) s else s

end Sys2Proof.Machine
end

