-- ==== Sys2Proof/Machine/Tones.lean ====
section
/-! DEFINITION. The tone slots (R156–R158) and the cue clocks (R160–R164). -/

namespace Sys2Proof.Machine

/-! ### Tone slots -/

/-- The rank of a pattern (R156). -/
def Pattern.rank : Pattern → Nat
  | .call => 1
  | .cueBeep => 2
  | .cueZero => 3

/-- The phases of a pattern, each on or off with its length in mixes (R156). -/
def Pattern.phases : Pattern → List (Bool × Nat)
  | .call => [(true, 100), (false, 100), (true, 100), (false, 100), (true, 100), (false, 100)]
  | .cueBeep => [(true, 100)]
  | .cueZero => [(true, 500)]

/-- A pattern at its beginning. -/
def Tone.fresh (p : Pattern) : Tone := ⟨p, 0, 0, 0⟩

/-- A request to a tone slot: placed, replacing or restarting when its rank is not below that of the pattern held; else discarded
(R157). -/
def requestTone (slot : Option Tone) (p : Pattern) : Option Tone :=
  match slot with
  | none => some (Tone.fresh p)
  | some t => if t.pattern.rank ≤ p.rank then some (Tone.fresh p) else some t

/-- A request to the tone slot of feed `i` (R157). -/
def State.toneRequest (s : State) (i : Nat) (p : Pattern) : State := s.setTone i (requestTone (s.tone i) p)

/-- The half-period of a frequency code, in samples (R158). -/
def halfPeriod (code : Nat) : Nat := [8, 12, 16, 24, 32, 40, 48, 60].getD code 8

/-- The phase a tone stands in. -/
def Tone.phaseNow (t : Tone) : Bool × Nat := t.pattern.phases.getD t.phase (false, 0)

/-- The frequency code that a pattern uses (R156). -/
def toneCode (c : FeedCfg) : Pattern → Nat
  | .call => c.callFreq
  | .cueBeep => c.cueFreq
  | .cueZero => c.cueFreq

/-- Tone sample `n` of a mix with amplitude `a` (R158). -/
def toneSample (c : FeedCfg) (a : Int) (slot : Option Tone) (n : Nat) : Sample :=
  match slot with
  | some t =>
    if t.phaseNow.1 then (if (t.samples + n) / halfPeriod (toneCode c t.pattern) % 2 = 0 then a else -a) else 0
  | none => 0

/-- The slot after a mix, before a phase it completes is left (R156). -/
def Tone.mixed (t : Tone) : Tone := { t with mixes := t.mixes + 1, samples := t.samples + 48 }

/-- A tone has completed its phase. -/
def Tone.phaseDone (t : Tone) : Bool := decide (t.phaseNow.2 ≤ t.mixes)

/-- The slot of feed `i` leaves a completed phase: for the next phase, or empty after the last (R156). -/
def State.endPhase (s : State) (i : Nat) : State :=
  match s.tone i with
  | some t =>
    if t.phaseDone then
      s.setTone i (if t.phase + 1 < t.pattern.phases.length then some ⟨t.pattern, t.phase + 1, 0, 0⟩ else none)
    else s
  | none => s

/-! ### Cue clocks -/

/-- The lead of a clock of feed `i` (R160). -/
def State.lead (s : State) (i : Nat) : Nat := if i = 4 ∨ i = 5 then (s.feedCfg i).lead else 0

/-- The clock is RUNNING with this origin, destination and feed. -/
def Clock.isFor (origin dest feed : Nat) (k : Clock) : Bool := k.origin == origin && k.dest == dest && k.feed == feed

/-- The number of the RUNNING clock with this origin, destination and feed. -/
def State.clockFor (s : State) (origin dest feed : Nat) : Option Nat :=
  (List.range 4).find? fun c => (s.clock c).any (Clock.isFor origin dest feed)

/-- The lowest-numbered IDLE clock (R161). -/
def State.idleClock (s : State) : Option Nat := (List.range 4).find? fun c => (s.clock c).isNone

/-- A CUE at one answering feed: restart, bind, or CUE-REFUSED (R161). `seconds` is 1–99. -/
def State.cueFeed (s : State) (origin dest seconds mode feed : Nat) : State :=
  let k : Clock := ⟨origin, dest, feed, seconds, mode == 1, 1000 * seconds⟩
  match s.clockFor origin dest feed with
  | some c => s.setClock c (some k)
  | none =>
    match s.idleClock with
    | some c => s.setClock c (some k)
    | none => s.raise (.cueRefused feed origin dest seconds)

/-- A CUE with seconds (R161): above 99 is taken as 99, and the feeds are taken in order. -/
def State.cueTaken (s : State) (origin dest seconds mode : Nat) : State :=
  (List.range 6).foldl (fun s i =>
    if (s.matched i [dest]).isSome then s.cueFeed origin dest (min seconds 99) mode i else s) s

/-- A CUE with 0 seconds (R162). -/
def State.cueHalted (s : State) (origin dest : Nat) : State :=
  (List.range 6).foldl (fun s i =>
    if (s.matched i [dest]).isSome then
      match s.clockFor origin dest i with
      | some c => s.setClock c none
      | none => s
    else s) s

/-- The pattern that a remaining count `r` asks for under a lead (R163). -/
def cuePattern (r lead : Nat) : Option Pattern :=
  if r = lead then some .cueZero
  else if r = lead + 1000 ∨ r = lead + 2000 ∨ r = lead + 3000 ∨ r = lead + 4000 ∨ r = lead + 5000 then some .cueBeep
  else none

/-- Clock `c` has reached zero (R164). -/
def State.cueZero (s : State) (c : Nat) : State :=
  match s.clock c with
  | some k =>
    if k.remaining = 0 then
      if k.repeats && (s.peer k.origin).present then s.setClock c (some { k with remaining := 1000 * k.seconds })
      else (s.setClock c none).raise (.cueExpired c k.feed k.origin k.dest k.repeats)
    else s
  | none => s

end Sys2Proof.Machine
end

