-- ==== Sys2Proof/Machine/Arbiter.lean ====
section
/-! DEFINITION. The cut-in arbiter: insertion, promotion and refill (R88–R91), removal (R93), level changes (R95–R97), arrival and close
of talk (R84–R87, R92), tally, peer loss and calls (R102–R106), and the memo unit's read pass (R116–R119).

`quiet` marks the change of the entry that a TALK-OPEN concerns: its ANSWER item reports it, so no FEED-NOTICE does (R101). -/

namespace Sys2Proof.Machine

/-- Feed `i` is a MIX feed. -/
def State.mixing (s : State) (i : Nat) : Bool := mixingFeed (s.feedCfg i)

/-- The effective floor of feed `i` (R83). -/
def State.floor (s : State) (i : Nat) : Nat := effectiveFloor (s.feedCfg i) (s.feed i)

/-! ### Notices and the reply register (R101, R107) -/

/-- A FEED-NOTICE of feed `i` for an entry that holds a tag (R101). -/
def State.notify (s : State) (i : Nat) (e : Entry) (st : ItemState) (r : Reason) : State :=
  if e.draining then s else s.offer (.feedNotice i e.talker e.source st.code r.code)

/-- The same, unless the ANSWER reports the change. -/
def State.notifyUnless (s : State) (quiet : Bool) (i : Nat) (e : Entry) (st : ItemState) (r : Reason) : State :=
  if quiet then s else s.notify i e st r

/-- The reply register takes the talker of an entry that becomes STACKED-TOP or ADMITTED (R107). -/
def State.setReply (s : State) (i t : Nat) : State := s.modFeed i fun f => { f with reply := some t }

/-- The top of the stack of feed `i`, if there is one, has just become STACKED-TOP (R107). -/
def State.replyTop (s : State) (i : Nat) : State :=
  match (s.feed i).stack.getLast? with
  | some e => s.setReply i e.talker
  | none => s

/-! ### Entering places -/

/-- Push onto the stack: the entry becomes STACKED-TOP and the old top STACKED-SUSPENDED (R86). The defer age, which is not counted for
an entry that is not held, is written 0: DESIGN CHOICE (log 28). -/
def State.push (s : State) (i : Nat) (e : Entry) : State :=
  (s.modFeed i fun f => { f with stack := f.stack ++ [{ e with deferAge := 0 }] }).setReply i e.talker

/-- Enter the admitted set (R87, R91), with defer age 0: DESIGN CHOICE (log 28). -/
def State.enterAdmitted (s : State) (i : Nat) (e : Entry) : State :=
  (s.modFeed i fun f => { f with admitted := insertByArrival { e with deferAge := 0 } f.admitted }).setReply i e.talker

/-- Insert an existing entry into the deferred list of feed `i`, evicting the lowest-ranked of nine (R88). The entry that is evicted
loses its memo chain, and a FEED-NOTICE REMOVED FULL goes to its talker. An entry that stays has SET-BACK reported when `setBack`,
and asks for memo when it has become HELD (R89), after the channels of an evicted entry are free: DESIGN CHOICE (log 16). -/
def State.insertHeld (s : State) (i : Nat) (e : Entry) (setBack quiet : Bool) : State :=
  let l := insertByRank e (s.feed i).deferred
  let report := fun s : State =>
    if setBack then s.notifyUnless quiet i e .held .setBack else s
  let ask := fun s : State => if setBack then s.requestMemo i e.talker e.source else s
  match (if l.length ≤ deferredPlaces then none else l.getLast?) with
  | none => ask (report (s.modFeed i fun f => { f with deferred := l }))
  | some out =>
    let s1 := s.modFeed i fun f => { f with deferred := l.dropLast }
    if Entry.isFor e.talker e.source out then
      (s1.discard i out (some .full)).notifyUnless quiet i out .removed .full
    else
      ask (((report s1).discard i out (some .full)).notify i out .removed .full)

/-- An entry taken out of a stacked or admitted place is set back: HELD, with defer age 0 (R87, R95, R96, R97). -/
def State.setBack (s : State) (i : Nat) (e : Entry) (quiet : Bool) : State :=
  s.insertHeld i { e with deferAge := 0 } true quiet

/-! ### Promotion and refill (R90, R91) -/

/-- The promotion check of a CUT-IN feed (R90). -/
def State.promotionCheck (s : State) (i : Nat) : State :=
  let f := s.feed i
  match f.deferred with
  | h :: rest =>
    if f.stack.isEmpty || decide (f.currentLevel < h.level) then
      ((s.modFeed i fun f => { f with deferred := rest }).push i h).notify i h .admitted .promoted
    else s
  | [] => s

/-- Admit a level-7 entry: a full admitted set first sets back its lowest-ranked entry (R87, R91), in silence where that is the entry
`own`, the one that a TALK-OPEN concerns (R101). -/
def State.admitSeven (s : State) (i : Nat) (e : Entry) (own : Option (Nat × Nat)) : State :=
  let f := s.feed i
  match (if f.admitted.length < admittedPlaces then none else lowestRanked f.admitted) with
  | none => s.enterAdmitted i e
  | some low =>
    ((s.modFeed i fun f => f.without low.talker low.source).setBack i low
      (own == some (low.talker, low.source))).enterAdmitted i e

/-- The refill of a MIX feed (R91); `fuel` bounds the heads it can admit. A head of level 7 leaves the deferred list before a full admitted set sets
back its lowest-ranked entry, so of eight held entries that head is none and nothing is evicted; R91 does not say when the head leaves: DESIGN
CHOICE (log 32). -/
def State.refillLoop : Nat → State → Nat → Option (Nat × Nat) → State
  | 0, s, _, _ => s
  | fuel + 1, s, i, own =>
    let f := s.feed i
    match f.deferred with
    | h :: rest =>
      if f.exclusive then s
      else if h.level = 7 then
        ((s.modFeed i fun f => { f with deferred := rest }).admitSeven i h own).notify i h .admitted .promoted
      else if f.admitted.length < admittedPlaces then
        (((s.modFeed i fun f => { f with deferred := rest }).enterAdmitted i h).notify i h .admitted
          .promoted).refillLoop fuel i own
      else s
    | [] => s

/-- The refill of a MIX feed (R91). A deferred list holds at most 8 heads to admit. `own` is the entry that a TALK-OPEN concerns. -/
def State.refillBut (s : State) (i : Nat) (own : Option (Nat × Nat)) : State := s.refillLoop deferredPlaces i own

/-- The refill of a MIX feed, in an event that is no TALK-OPEN for one of its entries (R91). -/
def State.refill (s : State) (i : Nat) : State := s.refillBut i none

/-- What follows when a place has freed: the promotion check of a CUT-IN feed, the refill of a MIX feed. -/
def State.fillPlace (s : State) (i : Nat) : State := if s.mixing i then s.refill i else s.promotionCheck i

/-! ### Removal (R93) -/

/-- The removal of the entry of feed `i` for a talker and source; `cause` is none for a release (R93, R122). -/
def State.remove (s : State) (i t src : Nat) (cause : Option Reason) (quiet : Bool) : State :=
  let f := s.feed i
  match f.find t src, f.place t src with
  | some e, some p =>
    let s1 := (s.modFeed i fun f => f.without t src).discard i e cause
    let s2 :=
      match cause with
      | some r => s1.notifyUnless quiet i e .removed r
      | none => s1
    match p with
    | .top => (s2.replyTop i).promotionCheck i
    | .admitted => s2.refill i
    | .suspended => s2
    | .held => s2
  | _, _ => s

/-- The release of an entry that has lost its last tag: it drains a chain that holds a block, and is removed otherwise (R93, R121). -/
def State.release (s : State) (i t src : Nat) : State :=
  match (s.feed i).find t src with
  | some e => if s.chainFill e.chain = 0 then s.remove i t src none false else s
  | none => s

/-! ### Level changes (R95–R97) -/

/-- The level of the entry beneath the top. -/
def Feed.beneathTop (f : Feed) : Option Nat := f.stack.dropLast.getLast?.map Entry.level

/-- The level of the entry beneath a suspended one. -/
def Feed.beneath (f : Feed) (t src : Nat) : Option Nat :=
  ((f.stack.takeWhile fun e => !Entry.isFor t src e).getLast?).map Entry.level

/-- Re-arbitration of the top of a stack whose level changes to `new` (R95). -/
def State.relevelTop (s : State) (i : Nat) (e : Entry) (new : Nat) (quiet : Bool) : State :=
  let f := s.feed i
  let e' := { e with level := new }
  let write := s.modEntry i e.talker e.source fun e => { e with level := new }
  if e.level ≤ new then write
  else if f.beneathTop.all fun b => decide (b < new) then write.promotionCheck i
  else
    let s1 := s.modFeed i fun f => f.without e.talker e.source
    ((s1.setBack i e' quiet).replyTop i).promotionCheck i

/-- Re-arbitration of a suspended entry whose level changes to `new` (R96). -/
def State.relevelSuspended (s : State) (i : Nat) (e : Entry) (new : Nat) (quiet : Bool) : State :=
  let f := s.feed i
  let e' := { e with level := new }
  let out := s.modFeed i fun f => f.without e.talker e.source
  if e.level < new then
    if f.currentLevel < new then out.push i e' else out.setBack i e' quiet
  else if (f.beneath e.talker e.source).all fun b => decide (b < new) then
    s.modEntry i e.talker e.source fun e => { e with level := new }
  else out.setBack i e' quiet

/-- Re-arbitration of a held entry of a CUT-IN feed whose level changes to `new` (R96). -/
def State.relevelHeld (s : State) (i : Nat) (e : Entry) (new : Nat) (quiet : Bool) : State :=
  let e' := { e with level := new }
  let s1 := (s.modFeed i fun f => f.without e.talker e.source).insertHeld i e' false quiet
  let f := s1.feed i
  if f.stack.isEmpty || decide (f.currentLevel < new) then
    ((s1.modFeed i fun f => f.without e.talker e.source).push i e').notifyUnless quiet i e' .admitted .promoted
  else s1

/-- Re-arbitration of an entry of a MIX feed whose level changes to `new` (R97). A held entry that rises to level 7 leaves the deferred list before a
full admitted set sets back its lowest-ranked entry, as a head does in the refill: DESIGN CHOICE (log 32). -/
def State.relevelMix (s : State) (i : Nat) (e : Entry) (p : Place) (new : Nat) (quiet : Bool) : State :=
  let f := s.feed i
  let e' := { e with level := new }
  let write := s.modEntry i e.talker e.source fun e => { e with level := new }
  let out := s.modFeed i fun f => f.without e.talker e.source
  match p with
  | .admitted =>
    if new = 7 then (if f.exclusive then out.setBack i e' quiet else write)
    else if e.level = 7 then write.refillBut i (if quiet then some (e.talker, e.source) else none)
    else write
  | _ =>
    if new = 7 && !f.exclusive then (out.admitSeven i e' none).notifyUnless quiet i e' .admitted .promoted
    else out.insertHeld i e' false quiet

/-- The level of the entry of feed `i` for a talker and source is recomputed from its tags: below the effective floor it is removed
with reason FLOOR; else a change is re-arbitrated by its place (R85, R92, R95–R97). -/
def State.relevel (s : State) (i t src : Nat) (quiet : Bool) : State :=
  let f := s.feed i
  match f.find t src, f.place t src with
  | some e, some p =>
    let new := e.tagLevel
    if new = e.level then s
    else if new < s.floor i then s.remove i t src (some .floor) quiet
    else if s.mixing i then s.relevelMix i e p new quiet
    else
      match p with
      | .top => s.relevelTop i e new quiet
      | .suspended => s.relevelSuspended i e new quiet
      | _ => s.relevelHeld i e new quiet
  | _, _ => s

/-! ### Arrival of talk (R84–R88) -/

/-- The class in which a talker sees its entry, after a TALK-OPEN that concerned it: absent, the entry evicted itself (R82, R88, R100). -/
def State.classOf (s : State) (i t src : Nat) : ItemState × Reason :=
  match (s.feed i).place t src with
  | some .held => (.held, .none)
  | some _ => (.admitted, .none)
  | none => (.removed, .full)

/-- The item of feed `i` for a class and reason. -/
def itemOf (i d : Nat) (r : ItemState × Reason) : WireItem := ⟨i, d, r.1.code, r.2.code⟩

/-- A TALK-OPEN of talker `t` at feed `i`, which holds entry `e` for it, under matched destination `d` (R85). -/
def State.openExisting (s : State) (i t d : Nat) (m : TalkOpen) (e : Entry) : State × WireItem :=
  let has := e.tags.any fun x => x.tag == m.tag
  let one : EntryTag := ⟨m.tag, m.level, d, m.memo⟩
  if has && m.reannounce then (s, itemOf i d (s.classOf i t m.source))
  else if !has && decide (4 ≤ e.tags.length) then (s, itemOf i d (.refused, .full))
  else
    let tags := if has then e.tags.map fun x => if x.tag == m.tag then one else x else e.tags ++ [one]
    let wasHeld := (s.feed i).place t m.source == some .held
    let s1 := s.modEntry i t m.source fun e => { e with tags := tags, lane := m.lane }
    let s2 := s1.relevel i t m.source true
    let low := decide (({ e with tags := tags }).tagLevel < s.floor i) && ({ e with tags := tags }).tagLevel != e.level
    let isHeld := (s2.feed i).place t m.source == some .held
    let s3 := if wasHeld && isHeld && m.memo then s2.requestMemo i t m.source else s2
    (s3, itemOf i d (if low then (.removed, .floor) else s3.classOf i t m.source))

/-- Make the entry of a TALK-OPEN, with the feed's next arrival number, and hand it to a place (R82, R86). -/
def State.newEntry (s : State) (i t d : Nat) (m : TalkOpen) : Entry × State :=
  let r := (s.feed i).takeArrival
  (⟨t, m.source, [⟨m.tag, m.level, d, m.memo⟩], m.level, m.lane, r.1, 0, [], none, none⟩, s.modFeed i fun _ => r.2)

/-- A new entry that waits: refused with FULL when eight are held and none ranks below it, else inserted, with the memo request of R89
(R86–R89). Where it evicts another entry, it asks after the channels of that one are IDLE, where R88 and R112 give no order: DESIGN CHOICE
(log 16). -/
def State.holdNew (s : State) (i t d : Nat) (m : TalkOpen) : State × WireItem :=
  let f := s.feed i
  if decide (deferredPlaces ≤ f.deferred.length) && f.deferred.getLast?.any fun x => decide (m.level ≤ x.level) then
    (s, itemOf i d (.refused, .full))
  else
    let r := s.newEntry i t d m
    ((r.2.insertHeld i r.1 false true).requestMemo i t m.source, itemOf i d (.held, .none))

/-- A TALK-OPEN at feed `i`, which holds no entry for its talker and source (R86, R87). -/
def State.openNew (s : State) (i t d : Nat) (m : TalkOpen) : State × WireItem :=
  let f := s.feed i
  let take := itemOf i d (.admitted, .none)
  if m.level < s.floor i then (s, itemOf i d (.refused, .floor))
  else if s.mixing i then
    if m.level = 7 then
      if f.exclusive then s.holdNew i t d m
      else
        let r := s.newEntry i t d m
        (r.2.admitSeven i r.1 none, take)
    else if f.exclusive || decide (admittedPlaces ≤ f.admitted.length) then s.holdNew i t d m
    else
      let r := s.newEntry i t d m
      (r.2.enterAdmitted i r.1, take)
  else if f.stack.isEmpty || decide (f.currentLevel < m.level) then
    let r := s.newEntry i t d m
    (r.2.push i r.1, take)
  else s.holdNew i t d m

/-- The excluded source of a RETURN feed (R81). -/
def excludedSource (i : Nat) : Option Nat :=
  match i with
  | 4 => some 2
  | 5 => some 3
  | _ => none

/-- A TALK-OPEN of talker `t` at feed `i`: whether the feed acts, and how (R84). -/
def State.openAt (t : Nat) (m : TalkOpen) (r : State × List WireItem) (i : Nat) : State × List WireItem :=
  let s := r.1
  match s.matched i m.dests with
  | some d =>
    if t == s.number && excludedSource i == some m.source then r
    else
      let a :=
        match (s.feed i).find t m.source with
        | some e => s.openExisting i t d m e
        | none => s.openNew i t d m
      (a.1.sync i, r.2 ++ [a.2])
  | none => r

/-- A TALK-OPEN of talker `t` (R84, R100): the feeds in order, then one ANSWER with an item for each that acted. -/
def State.talkOpened (s : State) (t : Nat) (m : TalkOpen) : State :=
  let r := (List.range 6).foldl (State.openAt t m) (s, [])
  if r.2.isEmpty then r.1 else r.1.offer (.answer t m.tag m.serial r.2)

/-! ### Close and move of talk (R92, R98) -/

/-- A TALK-CLOSE at feed `i` (R92). -/
def State.closeAt (t src tag : Nat) (s : State) (i : Nat) : State :=
  match (s.feed i).find t src with
  | some e =>
    if e.tags.any fun x => x.tag == tag then
      let rest := e.tags.filter fun x => x.tag != tag
      let s1 := s.modEntry i t src fun e => { e with tags := rest }
      (if rest.isEmpty then s1.release i t src else s1.relevel i t src false).sync i
    else s
  | none => s

/-- A TALK-CLOSE of talker `t` (R92). -/
def State.talkClosed (s : State) (t src tag : Nat) : State := (List.range 6).foldl (State.closeAt t src tag) s

/-- A TALK-MOVE of talker `t`: every entry of it and the source takes the lane (R98). -/
def State.talkMoved (s : State) (t src lane : Nat) : State :=
  (List.range 6).foldl (fun s i => s.modEntry i t src fun e => { e with lane := lane }) s

/-! ### The defer limit (R99) -/

/-- The expiry of the held entry of feed `i` for a talker and source (R99). -/
def State.expireHeld (s : State) (i t src : Nat) : State :=
  match (s.feed i).deferred.find? (Entry.isFor t src) with
  | some e =>
    if s.cfg.station.deferLimit ≤ e.deferAge then (s.remove i t src (some .expired) false).sync i else s
  | none => s

/-! ### Tally (R102, R103) -/

/-- The entries of feed `i` that going on air removes, in the order of their notices: top of stack and down, the admitted set in
arrival order, the deferred list from its head (R103). That their MEMO-STATEs DISCARDED take this order too is a DESIGN CHOICE (log 31). -/
def belowFloor (floor : Nat) (f : Feed) : List Entry :=
  (f.stack.reverse ++ f.admitted ++ f.deferred).filter fun e => decide (e.level < floor)

/-- One entry leaves in a step that removes several: no promotion check or refill runs in between (R103, R104). -/
def State.drop (cause : Option Reason) (i : Nat) (s : State) (e : Entry) : State :=
  let s1 := (s.modFeed i fun f => f.without e.talker e.source).discard i e cause
  match cause with
  | some r => s1.notify i e .removed r
  | none => s1

/-- Two tops of a stack are the same entry. -/
def sameTop (a b : Option Entry) : Bool :=
  match a, b with
  | some x, some y => Entry.isFor x.talker x.source y
  | none, none => true
  | _, _ => false

/-- What follows a step that removed several entries: the reply register when another entry has become top, and one promotion check
or refill (R103, R104, R107). -/
def State.afterStep (s : State) (i : Nat) (oldTop : Option Entry) : State :=
  let s1 := if sameTop oldTop (s.feed i).stack.getLast? then s else s.replyTop i
  (s1.fillPlace i).sync i

/-- The on-air step (R103). Each entry loses its chain as it leaves, so several MEMO-STATEs DISCARDED stand in the order of `belowFloor`, which R103
gives to the FEED-NOTICEs alone and R122 to none: DESIGN CHOICE (log 31). -/
def State.onAirStep (s : State) (i : Nat) : State :=
  let f := s.feed i
  ((belowFloor (s.feedCfg i).onAirFloor f).foldl (State.drop (some .floor) i) s).afterStep i f.stack.getLast?

/-- An on-air record of this origin and destination. -/
def OnAir.isFor (origin d : Nat) (r : OnAir) : Bool := r.origin == origin && r.dest == d

/-- An on-air record leaves feed `i`; the last one takes the feed off air (R102). -/
def State.dropOnAir (s : State) (i origin d : Nat) (cause : TallyCause) : State :=
  let f := s.feed i
  if f.onAir.any (OnAir.isFor origin d) then
    let rest := f.onAir.filter fun r => !OnAir.isFor origin d r
    let s1 := s.modFeed i fun f => { f with onAir := rest }
    if rest.isEmpty then s1.raise (.tallyChange i false origin d cause) else s1
  else s

/-- A TALLY at feed `i` under destination `d` (R102). The memo unit's events of the on-air step stand before TALLY-CHANGE, where R198 takes either
order: DESIGN CHOICE (log 30). -/
def State.tallyAt (s : State) (i origin d : Nat) (on : Bool) : State :=
  let f := s.feed i
  if on then
    if f.onAir.any (OnAir.isFor origin d) then
      let zero := fun r : OnAir => if OnAir.isFor origin d r then { r with age := 0 } else r
      s.modFeed i fun f => { f with onAir := f.onAir.map zero }
    else if f.onAir.length < 4 then
      let s1 := s.modFeed i fun f => { f with onAir := f.onAir ++ [⟨origin, d, 0⟩] }
      if f.onAir.isEmpty then (s1.onAirStep i).raise (.tallyChange i true origin d .on) else s1
    else s
  else s.dropOnAir i origin d .off

/-- A TALLY of an origin (R102). -/
def State.tallied (s : State) (origin d : Nat) (on : Bool) : State :=
  (List.range 6).foldl (fun s i => if (s.matched i [d]).isSome then s.tallyAt i origin d on else s) s

/-- The expiry of an on-air record (R102). -/
def State.expireOnAir (s : State) (i origin d : Nat) : State :=
  if (s.feed i).onAir.any fun r => OnAir.isFor origin d r && decide (2000 ≤ r.age) then s.dropOnAir i origin d .expired
  else s

/-! ### Calls (R105, R106) -/

/-- A call record of this caller and key. -/
def CallRec.isFor (caller key : Nat) (r : CallRec) : Bool := r.caller == caller && r.key == key

/-- A record leaves the call list of feed `i` with CALL-EXPIRED (R105, R106). -/
def State.dropCall (s : State) (i caller key : Nat) (cause : CallCause) : State :=
  if (s.feed i).calls.any (CallRec.isFor caller key) then
    let keep := fun r => !CallRec.isFor caller key r
    (s.modFeed i fun f => { f with calls := f.calls.filter keep }).raise (.callExpired i caller key cause)
  else s

/-- A CALL at feed `i` under matched destination `d` (R105). -/
def State.callAt (s : State) (caller key kind : Nat) (i d : Nat) : State :=
  let f := s.feed i
  let urgent := kind == 1
  let keep := fun r => !CallRec.isFor caller key r
  let s1 :=
    match f.calls with
    | old :: _ =>
      if !f.calls.any (CallRec.isFor caller key) && decide (4 ≤ f.calls.length) then
        s.dropCall i old.caller old.key .dropped
      else s
    | [] => s
  let s2 := s1.modFeed i fun f => { f with calls := f.calls.filter keep ++ [⟨caller, key, urgent, d, 0⟩] }
  (s2.toneRequest i .call).raise (.callIn i caller key urgent d)

/-- A CALL of a caller (R105). -/
def State.called (s : State) (caller key kind : Nat) (dests : List Nat) : State :=
  (List.range 6).foldl (fun s i =>
    match s.matched i dests with
    | some d => s.callAt caller key kind i d
    | none => s) s

/-- The ages at which an URGENT record asks for the CALL tone again (R105). -/
def callRepeatAge (age : Nat) : Bool := age == 5000 || age == 10000 || age == 15000 || age == 20000 || age == 25000

/-- The repeat of an URGENT call (R105). -/
def State.repeatCall (s : State) (i caller key : Nat) : State :=
  if (s.feed i).calls.any fun r => CallRec.isFor caller key r && r.urgent && callRepeatAge r.age then
    s.toneRequest i .call
  else s

/-- The expiry of a call record (R105). -/
def State.expireCall (s : State) (i caller key : Nat) : State :=
  if (s.feed i).calls.any fun r => CallRec.isFor caller key r && decide (30000 ≤ r.age) then s.dropCall i caller key .age
  else s

/-! ### Peer loss (R104) -/

/-- The loss of peer `p` at feed `i`, in one step: entries with a block to play drain, the others are removed (R104). -/
def State.lossEntries (p : Nat) (s : State) (i : Nat) : State :=
  let f := s.feed i
  let gone := f.entries.filter fun e => e.talker == p && s.chainFill e.chain == 0
  let strip := fun e : Entry => if e.talker == p then { e with tags := [] } else e
  let s1 := s.modFeed i fun f => { f with
    stack := f.stack.map strip, admitted := f.admitted.map strip, deferred := f.deferred.map strip }
  let s2 := gone.foldl (State.drop none i) s1
  if f.entries.any fun e => e.talker == p then
    if !s.mixing i && (s2.feed i).currentLevel == f.currentLevel && !(s2.feed i).stack.isEmpty then s2.sync i
    else s2.afterStep i f.stack.getLast?
  else s

/-- The records of peer `p` leave feed `i`: its on-air records, then its call records (R102, R104, R106). Several of one kind leave in the order of
their list, where R104 and R106 give none, so the last in the list gives TALLY-CHANGE its destination: DESIGN CHOICE (log 31). -/
def State.lossRecords (p : Nat) (s : State) (i : Nat) : State :=
  let f := s.feed i
  let s1 := (f.onAir.filter fun r => r.origin == p).foldl (fun s r => s.dropOnAir i r.origin r.dest .absent) s
  (f.calls.filter fun r => r.caller == p).foldl (fun s r => s.dropCall i r.caller r.key .absent) s1

/-- The loss of peer `p`, feed by feed (R104). -/
def State.peerLost (s : State) (p : Nat) : State :=
  (List.range 6).foldl (fun s i => (s.lossEntries p i).lossRecords p i) s

/-- Peer `p` becomes ABSENT with the fan-out of R24; in ACTIVE PEER-CHANGE is raised (R23), before the events of the arbiter and the memo unit, where
R198 takes either order: DESIGN CHOICE (log 30). -/
def State.peerGone (s : State) (p : Nat) : State :=
  let s1 := s.modPeer p fun _ => Peer.gone
  let s2 := if s.active then s1.raise (.peerChange p false none) else s1
  (s2.freeLanesOf p).peerLost p

/-! ### The memo unit's read pass (R116–R119) -/

/-- The read of one audible entry of feed `i` with a chain: the oldest block is taken and widened, a head it empties is freed unless it is
the tail; a chain without a block is handed over to live audio, or ends the draining of its entry. -/
def State.readEntry (s : State) (i : Nat) (e : Entry) : State :=
  match e.chain with
  | head :: rest =>
    match (s.channel head).blocks with
    | b :: more =>
      let s1 := s.modEntry i e.talker e.source fun e => { e with played := some (b.map widen) }
      if more.isEmpty && !rest.isEmpty then
        (s1.modChannel head fun _ => Channel.rest).modEntry i e.talker e.source fun e => { e with chain := rest }
      else s1.modChannel head fun ch => { ch with blocks := more }
    | [] =>
      if e.draining then s.remove i e.talker e.source none false
      else (s.freeChain e.chain).modEntry i e.talker e.source fun e => { e with chain := [] }
  | [] => s

/-- The read pass over feed `i`: each audible entry with a chain is read once; an entry made audible by a removal is taken in the same
pass (R116, R119). `done` lists the entries read. -/
def State.readLoop : Nat → State → Nat → List (Nat × Nat) → State
  | 0, s, _, _ => s
  | fuel + 1, s, i, done =>
    let ready := fun e : Entry => !e.chain.isEmpty && !done.contains (e.talker, e.source)
    match (audible (s.mixing i) (s.feed i)).find? ready with
    | some e => (s.readEntry i e).readLoop fuel i ((e.talker, e.source) :: done)
    | none => s

/-- The read pass over feed `i`. A feed holds at most 15 entries, and each is read at most once. -/
def State.readPass (s : State) (i : Nat) : State := (s.readLoop 15 i []).sync i

end Sys2Proof.Machine
end

