-- ==== Sys2Proof/Machine/Keys.lean ====
section
/-! DEFINITION. The key unit: presses and releases, the modes and the functions of a key (R44–R54). -/

namespace Sys2Proof.Machine

/-! ### Opens and closes (R48–R52, R54) -/

/-- The path of key `k` to a destination list. -/
def keyOpen (c : KeyCfg) (dests : List Nat) : OpenReq := ⟨c.source, c.level, c.memo, dests⟩

/-- The record of a key that hands an open (R48–R50). An AUTO key starts its press length. -/
def Key.opens (r : Key) (c : KeyCfg) (resolved : Option Nat) : Key :=
  { r with
    logical := .opening
    latch := c.mode == 1
    pressLength := if c.mode = 2 then 0 else r.pressLength
    resolved := resolved }

/-- A press that opens: a TALK key hands its destinations, a REPLY key the station in the reply register, or it is refused with NO-REPLY
(R52, R54). -/
def State.openKey (s : State) (k : Nat) : State :=
  let c := s.keyCfg k
  if c.fn = 3 then
    match (s.feed c.replyFeed).reply with
    | some t => (s.modKey k fun r => r.opens c (some t)).openPath k (keyOpen c [t])
    | none => s.raise (.keyRefused k .noReply)
  else (s.modKey k fun r => r.opens c none).openPath k (keyOpen c c.dests)

/-- A key that wants no path (R43, R48). -/
def Key.idle (r : Key) : Key := { r with logical := .idle, latch := false, resolved := none }

/-- A key hands a close and goes IDLE (R48–R51). -/
def State.closeKey (s : State) (k : Nat) : State := (s.modKey k Key.idle).closePath k

/-! ### Press and release (R47) -/

/-- A press of a TALK or REPLY key, by its mode (R48–R51). -/
def State.pressMode (s : State) (k : Nat) : State :=
  let r := s.key k
  match (s.keyCfg k).mode with
  | 0 => if r.logical == .idle then s.openKey k else s
  | 1 => if r.logical == .idle then s.openKey k else if r.logical == .opened then s else s.closeKey k
  | _ => if r.logical == .idle then s.openKey k else if r.latch then s.closeKey k else s

/-- A press of a CALL key in ACTIVE (R53, R73). -/
def State.pressCall (s : State) (k : Nat) : State :=
  if s.admits (callMessage k (s.keyCfg k)) then s.placeCall k else s.raise (.keyRefused k .queue)

/-- A press of key `k` (R47). -/
def State.press (s : State) (k : Nat) : State :=
  let c := s.keyCfg k
  if c.fn = 0 then s
  else if !s.active then s.raise (.keyRefused k .line)
  else if c.fn = 2 then s.pressCall k
  else s.pressMode k

/-- The release of an AUTO key: a tap latches it, a hold closes its path (R50). -/
def State.releaseAuto (s : State) (k : Nat) : State :=
  let r := s.key k
  if r.latch then s
  else if r.pressLength < s.cfg.station.tapLimit then
    s.modKey k fun r => { r with latch := true, logical := if r.logical == .opened then .latched else r.logical }
  else s.closeKey k

/-- A release of key `k` (R47–R50). -/
def State.releaseKey (s : State) (k : Nat) : State :=
  let c := s.keyCfg k
  let r := s.key k
  if c.fn = 0 || r.logical == .idle then s
  else
    match c.mode with
    | 0 => if r.logical == .latched then s else s.closeKey k
    | 1 => s
    | _ => if r.logical == .latched then s else s.releaseAuto k

/-- The stable level of key `k` changes, and the change is taken (03, Key inputs). -/
def State.takeLevel (s : State) (k : Nat) (l : KeyLevel) : State :=
  let s' := s.modKey k fun r => { r with stable := l, debounce := 0 }
  match l with
  | .down => s'.press k
  | .up => s'.releaseKey k

/-- A level set for key `k` (R46): the level it already has changes nothing. -/
def State.setLevel (s : State) (k : Nat) (l : KeyLevel) : State :=
  if (s.key k).stable = l then s else s.takeLevel k l

/-- The other level. -/
def KeyLevel.other : KeyLevel → KeyLevel
  | .up => .down
  | .down => .up

/-- The debounce of key `k` completes: the level seen at eight openings in a row is taken (R44). -/
def State.debounced (s : State) (k : Nat) : State :=
  let c := s.keyCfg k
  let r := s.key k
  if c.fn ≠ 0 ∧ c.kind = 0 ∧ 7 ≤ r.debounce then s.takeLevel k (KeyLevel.other r.stable) else s

/-- The report that the TALK-OPEN of tag `k` has been sent, to its key (R52). -/
def Key.reported (r : Key) : Key :=
  if r.logical == .opening then { r with logical := if r.latch then .latched else .opened } else r

/-- An opening counts toward the press length of an AUTO key that is down with its latch flag clear (R50). -/
def Key.counted (r : Key) (c : KeyCfg) (tapLimit : Nat) : Key :=
  if c.mode = 2 ∧ (c.fn = 1 ∨ c.fn = 3) ∧ r.stable = .down ∧ r.latch = false ∧ r.logical ≠ .idle ∧ r.pressLength < tapLimit
  then { r with pressLength := r.pressLength + 1 } else r

end Sys2Proof.Machine
end

