-- ==== Sys2Proof/Machine/Field.lean ====
section
/-! DEFINITION. The field bridge: frames in and the inbound queues (R167–R172), playout and concealment (R173, R174), loss (R176), open
talk and need (R177–R179), and outbound framing (R180, R181). Channel 0 is A and channel 1 is B. -/

namespace Sys2Proof.Machine

/-! ### Need and open talk (R177–R179) -/

/-- The open talk of channel `c` is configured (R178). -/
def State.openTalkSet (s : State) (c : Nat) : Bool := decide (0 < (s.openTalkCfg c).count)

/-- The path that the open talk of channel `c` asks for (R178). -/
def State.openTalkReq (s : State) (c : Nat) : OpenReq :=
  let o := s.openTalkCfg c
  ⟨2 + c, o.level, o.memo, o.dests⟩

/-- Whether the channel holds its source's lane needed (R177). -/
def Chan.needs (ch : Chan) : Bool := ch.state == .playing || (ch.state == .filling && ch.resync)

/-- The need flag of channel `c`'s source follows the channel (R177). -/
def State.writeFieldNeed (s : State) (c : Nat) : State :=
  s.writeNeed (2 + c) (s.openTalkSet c && (s.chan c).needs)

/-- FIELD-STATE for a change of channel `c` from state `old` (R185). -/
def State.fieldEvent (s : State) (c : Nat) (old : ChanState) (cause : FieldCause) : State :=
  if s.active then s.raise (.fieldState c old (s.chan c).state (s.chan c).expected cause) else s

/-- A close of channel `c`'s path, when the bridge has it opening or open (R179). -/
def State.closeTalk (s : State) (c : Nat) : State :=
  if (s.chan c).openTalk == .none then s
  else (s.modChan c fun ch => { ch with openTalk := .none }).closePath (12 + c)

/-- The report that the TALK-OPEN of the channel's tag has been sent (R178). -/
def Chan.reported (ch : Chan) : Chan := if ch.openTalk == .opening then { ch with openTalk := .opened } else ch

/-! ### Frames in (R167–R172) -/

/-- The forward distance of frame `n` from `e` (R168). -/
def forward (n e : Nat) : Nat := (n + 65536 - e) % 65536

/-- Insert a frame by its forward distance (R168). -/
def insertFrame (e : Nat) (f : HeldFrame) : List HeldFrame → List HeldFrame
  | [] => [f]
  | x :: xs => if forward f.number e < forward x.number e then f :: x :: xs else x :: insertFrame e f xs

/-- The channel holds frame `n`. -/
def Chan.holds (ch : Chan) (n : Nat) : Bool := ch.queue.any fun f => f.number == n

/-- The channel takes frame `f` into its queue (R170, R171). -/
def Chan.accept (ch : Chan) (f : HeldFrame) : Chan :=
  { ch with queue := insertFrame ch.expected f ch.queue, loss := 0 }

/-- A frame starts or restarts the queue (R169, R170, R172). -/
def Chan.start (ch : Chan) (f : HeldFrame) : Chan :=
  { ch with expected := f.number, offset := 0, queue := [f], loss := 0 }

/-- Entry to PLAYING (R172, R178): the need flag is set, and the open is handed when open talk is configured. FIELD-STATE stands before a LANE-WAIT
of the source, where R198 takes either order: DESIGN CHOICE (log 30). -/
def State.fill (s : State) (c : Nat) : State :=
  let old := (s.chan c).state
  let s1 := s.modChan c fun ch => { ch with state := .playing, offset := 0, last := zeroBlock, resync := false }
  let s2 := (s1.fieldEvent c old .filled).writeFieldNeed c
  if s.openTalkSet c then
    (s2.modChan c fun ch => { ch with openTalk := if ch.openTalk == .none then .opening else ch.openTalk }).openPath
      (12 + c) (s.openTalkReq c)
  else s2

/-- A frame in IDLE or LOST starts FILLING (R169). -/
def State.frameFirst (s : State) (c : Nat) (f : HeldFrame) : State :=
  let old := (s.chan c).state
  ((s.modChan c fun ch => { ch.start f with state := .filling, resync := false }).fieldEvent c old
    .firstFrame).writeFieldNeed c

/-- A frame in FILLING (R170). -/
def State.frameFilling (s : State) (c : Nat) (f : HeldFrame) : State :=
  let ch := s.chan c
  let d := forward f.number ch.expected
  if 32768 ≤ d then s.modChan c fun ch => { ch with late := bump ch.late }
  else if 8 ≤ d then s.modChan c fun ch => { ch.start f with resyncs := bump ch.resyncs }
  else if ch.holds f.number then s.modChan c fun ch => { ch with duplicate := bump ch.duplicate }
  else
    let s1 := s.modChan c fun ch => ch.accept f
    if s.cfg.station.targetFill ≤ (s1.chan c).queue.length then s1.fill c else s1

/-- A frame in PLAYING (R171, R172). -/
def State.framePlaying (s : State) (c : Nat) (f : HeldFrame) : State :=
  let ch := s.chan c
  let d := forward f.number ch.expected
  if 32768 ≤ d ∨ (d = 0 ∧ 0 < ch.offset) then s.modChan c fun ch => { ch with late := bump ch.late }
  else if 8 ≤ d then
    ((s.modChan c fun ch =>
      { ch.start f with state := .filling, resync := true, last := zeroBlock, resyncs := bump ch.resyncs }).fieldEvent
        c .playing .resync).writeFieldNeed c
  else if ch.holds f.number then s.modChan c fun ch => { ch with duplicate := bump ch.duplicate }
  else s.modChan c fun ch => ch.accept f

/-- A frame with a good check for channel `c` (R169–R172). -/
def State.frameAt (s : State) (c : Nat) (f : HeldFrame) : State :=
  match (s.chan c).state with
  | .idle => s.frameFirst c f
  | .lost => s.frameFirst c f
  | .filling => s.frameFilling c f
  | .playing => s.framePlaying c f

/-- A present flag of a frame (R207). -/
def framePresent (f : FieldFrame) (c : Nat) : Bool := f.flags / 2 ^ c % 2 == 1

/-- One channel's part of an arriving frame. -/
def State.frameFor (s : State) (frame : FieldFrame) (c : Nat) : State :=
  if framePresent frame c then
    s.frameAt c ⟨frame.number, if c = 0 then frame.samplesA else frame.samplesB⟩
  else s

/-- The arrival of a frame (R167, R206). A frame that names both channels is taken by A first: DESIGN CHOICE (log 4). -/
def State.frameArrived (s : State) (frame : FieldFrame) : State :=
  if s.active && s.cfg.station.fieldEnable == 1 then
    if frame.good && frame.length == 965 then (s.frameFor frame 0).frameFor frame 1
    else s.modFb fun b => { b with checkFails := bump b.checkFails }
  else s

/-! ### Playout and loss (R173, R174, R176) -/

/-- A concealed block (R174). -/
def conceal (b : Block) : Block := b.map fun x => x.tdiv 2

/-- The head of the queue is frame E. -/
def Chan.headIsE (ch : Chan) : Bool := ch.queue.head?.any fun f => f.number == ch.expected

/-- The block that a playout step produces (R173). -/
def Chan.produced (ch : Chan) : Block :=
  match ch.queue.head? with
  | some f => if f.number = ch.expected then toBlock ((f.samples.drop (48 * ch.offset)).take 48) else conceal ch.last
  | none => conceal ch.last

/-- The channel after a playout step (R173). -/
def Chan.played (ch : Chan) : Chan :=
  { ch with
    last := ch.produced
    concealed := if ch.headIsE then ch.concealed else bump ch.concealed
    offset := if ch.offset < 4 then ch.offset + 1 else 0
    expected := if ch.offset < 4 then ch.expected else (ch.expected + 1) % 65536
    queue := if ch.offset < 4 then ch.queue else if ch.headIsE then ch.queue.tail else ch.queue }

/-- A channel makes a playout step: PLAYING, with no loss due at this opening (R173, R176). -/
def Chan.plays (ch : Chan) : Bool := ch.state == .playing && decide (ch.loss < 100)

/-- The playout step of channel `c` (R173). -/
def State.playout (s : State) (c : Nat) : State := if (s.chan c).plays then s.modChan c Chan.played else s

/-- The loss count after an opening (R176). -/
def Chan.aged (ch : Chan) : Chan :=
  if ch.state == .filling || ch.state == .playing then { ch with loss := min (ch.loss + 1) 100 } else ch

/-- A channel whose loss count has reached 100 (R176). -/
def Chan.lossDue (ch : Chan) : Bool := (ch.state == .filling || ch.state == .playing) && decide (100 ≤ ch.loss)

/-- The loss of channel `c` (R176). The path is closed before the need flag is cleared, in one step by R176 and R179: DESIGN CHOICE (log 30). -/
def State.loseChannel (s : State) (c : Nat) : State :=
  let old := (s.chan c).state
  if (s.chan c).lossDue then
    (((s.modChan c fun ch =>
      { ch with state := .lost, queue := [], offset := 0, last := zeroBlock, resync := false, loss := 0 }).fieldEvent
        c old .loss).closeTalk c).writeFieldNeed c
  else s

/-- The channel in IDLE, on leaving ACTIVE: counts, E and offset are kept (R183, R184). -/
def Chan.idled (ch : Chan) : Chan :=
  { ch with state := .idle, resync := false, queue := [], last := zeroBlock, loss := 0, openTalk := .none }

/-- The block that the bridge hands the voice detector for channel `c` at this opening: the one of its playout step, widened, or
zeros (R150, R173). -/
def State.fieldBlock (s : State) (c : Nat) : Block :=
  if s.active && (s.chan c).plays then ((s.chan c).last).map widen else zeroBlock

/-! ### Outbound framing (R180, R181) -/

/-- Outbound channel `c` is present: its RETURN feed's type is RETURN (R180). -/
def State.outPresent (s : State) (c : Nat) : Bool := (s.feedCfg (4 + c)).type == 3

/-- 240 zeros. -/
def zeroFrame : List Sample := List.replicate 240 0

/-- The frame of the gathered blocks (R180). -/
def Fb.frame (b : Fb) (presentA presentB : Bool) : OutFrame :=
  ⟨b.frameNo, presentA, presentB, if presentA then b.gatherA else zeroFrame, if presentB then b.gatherB else zeroFrame⟩

/-- A finished frame is sent, or waits, or replaces the one that waits (R181). -/
def Fb.transmit (b : Fb) (f : OutFrame) : Fb :=
  match b.sending, b.hold with
  | none, _ => { b with sending := some f }
  | some _, none => { b with hold := some f }
  | some _, some _ => { b with hold := some f, drops := bump b.drops }

/-- The position completes when every present channel has its block (R180). -/
def Fb.complete (b : Fb) (presentA presentB : Bool) : Bool :=
  (!presentA || decide (48 * (b.gatherPos + 1) ≤ b.gatherA.length))
    && (!presentB || decide (48 * (b.gatherPos + 1) ≤ b.gatherB.length))

/-- The bridge after a block, when the position may have completed (R180). -/
def Fb.advance (b : Fb) (presentA presentB : Bool) : Fb :=
  if b.complete presentA presentB then
    if b.gatherPos < 4 then { b with gatherPos := b.gatherPos + 1 }
    else
      let f := b.frame presentA presentB
      ({ b with frameNo := (b.frameNo + 1) % 65536, gatherPos := 0, gatherA := [], gatherB := [] }).transmit f
  else b

/-- The mix of F4 (`c` 0) or F5 (`c` 1) hands a block, which is narrowed and gathered while framing has started (R145, R180). -/
def State.gather (s : State) (c : Nat) (block : Block) : State :=
  if s.fb.framing then
    let b := (toBlock block).map narrow
    s.modFb fun fb =>
      (if c = 0 then { fb with gatherA := fb.gatherA ++ b } else { fb with gatherB := fb.gatherB ++ b }).advance
        (s.outPresent 0) (s.outPresent 1)
  else s

/-- The field port has sent its frame: the one that waits follows at once (R181). -/
def Fb.sent (b : Fb) : Fb := { b with sending := b.hold, hold := none }

/-- The bytes of an outbound frame (R207). -/
def OutFrame.bytes (f : OutFrame) : List Nat := frameBytes f.number f.presentA f.presentB f.samplesA f.samplesB

/-- Framing starts: on entry to ACTIVE with the field enable on (R180, R184). -/
def Fb.entered (b : Fb) (enable : Bool) : Fb :=
  { b with framing := enable, frameNo := 0, gatherPos := 0, gatherA := [], gatherB := [], hold := none }

end Sys2Proof.Machine
end

