-- ==== Sys2Proof/Machine/Voice.lean ====
section
/-! DEFINITION. The voice detector: peak, envelope, onset, release and hang (R150–R153). -/

namespace Sys2Proof.Machine

/-- The peak of a block: the largest magnitude (R151). -/
def peak (b : Block) : Nat := b.foldl (fun m x => max m x.natAbs) 0

/-- The envelope after a block with peak `p` (R151). -/
def nextEnvelope (e p : Nat) : Nat := if e ≤ p then p else e - e / 16

/-- The onset level of a threshold code (R152). -/
def onsetLevel (code : Nat) : Nat := 16384 * 2 ^ code

/-- The release level of a threshold code (R152). -/
def releaseLevel (code : Nat) : Nat := onsetLevel code / 2

/-- The detector's record after a block, a hang count that reaches the hang left to be taken (R151–R153). -/
def Vox.evaluated (v : Vox) (c : SourceCfg) (block : Block) : Vox :=
  let e := nextEnvelope v.envelope (peak block)
  let v' := { v with envelope := e, block := block }
  if c.vox = 0 then { v' with voice := true, hang := 0 }
  else if v.voice then
    if e < releaseLevel c.threshold then { v' with hang := min (v.hang + 1) c.hang } else { v' with hang := 0 }
  else if onsetLevel c.threshold ≤ e then { v' with voice := true, hang := 0 }
  else v'

/-- A hang count that has reached the hang (R153). -/
def Vox.hangDue (v : Vox) (c : SourceCfg) : Bool := c.vox != 0 && v.voice && decide (c.hang ≤ v.hang)

/-- The block that source `n` takes at this opening (R150). -/
def State.sourceBlock (s : State) (n : Nat) : Block :=
  match n with
  | 0 => s.vd.micA
  | 1 => s.vd.micB
  | 2 => s.fieldBlock 0
  | _ => s.fieldBlock 1

/-- Evaluate source `n` (R150). -/
def State.evaluate (s : State) (n : Nat) : State :=
  s.modVox n fun v => v.evaluated (s.sourceCfg n) (toBlock (s.sourceBlock n))

/-- The source turns QUIET at the end of its hang (R153). -/
def State.hangEnd (s : State) (n : Nat) : State :=
  if (s.vox n).hangDue (s.sourceCfg n) then s.modVox n fun v => { v with voice := false, hang := 0 } else s

/-! ### The slot of an own lane (R39, R154) -/

/-- The quiet flag of source `n`'s slot (R39, R154, R177). -/
def State.quietSlot (s : State) (n : Nat) : Bool :=
  decide (n < 4) &&
    (!(s.vox n).voice
      || (decide (2 ≤ n) && (s.chan (n - 2)).state == .filling && (s.chan (n - 2)).resync))

/-- The samples of source `n`'s slot, before the organisation's narrowing (R39). -/
def State.slotSamples (s : State) (n : Nat) : Block :=
  if n = 4 then s.mx.localBlock else if s.quietSlot n then zeroBlock else (s.vox n).block

/-- The slot that the station transmits for source `n` (R39). -/
def State.ownSlot (s : State) (n : Nat) : Slot :=
  { holder := s.number
    source := n
    quiet := s.quietSlot n
    programme := if n = 4 then s.cfg.station.published else 0
    samples := if s.fine then toBlock (s.slotSamples n) else (toBlock (s.slotSamples n)).map narrow }

end Sys2Proof.Machine
end

