-- ==== Sys2Proof/Machine/Gain.lean ====
section
/-! DEFINITION. The gain table of the mix engine (R130). -/

namespace Sys2Proof.Machine

/-- Multipliers of codes 0–15 (R130). -/
def gainRow0 : List Nat :=
  [0, 46, 49, 52, 55, 58, 62, 65, 69, 73, 78, 82, 87, 92, 98, 103]

/-- Multipliers of codes 16–31 (R130). -/
def gainRow1 : List Nat :=
  [110, 116, 123, 130, 138, 146, 155, 164, 174, 184, 195, 206, 218, 231, 245, 260]

/-- Multipliers of codes 32–47 (R130). -/
def gainRow2 : List Nat :=
  [275, 291, 309, 327, 346, 367, 389, 412, 436, 462, 489, 518, 549, 581, 616, 652]

/-- Multipliers of codes 48–63 (R130). -/
def gainRow3 : List Nat :=
  [691, 732, 775, 821, 870, 921, 976, 1034, 1095, 1160, 1229, 1301, 1379, 1460, 1547, 1638]

/-- Multipliers of codes 64–79 (R130). -/
def gainRow4 : List Nat :=
  [1735, 1838, 1947, 2063, 2185, 2314, 2451, 2597, 2751, 2914, 3086, 3269, 3463, 3668, 3885, 4115]

/-- Multipliers of codes 80–95 (R130). -/
def gainRow5 : List Nat :=
  [4359, 4618, 4891, 5181, 5488, 5813, 6158, 6523, 6909, 7318, 7752, 8211, 8698, 9213, 9759, 10338]

/-- Multipliers of codes 96–111 (R130). -/
def gainRow6 : List Nat :=
  [10950, 11599, 12286, 13014, 13785, 14602, 15467, 16384, 17355, 18383, 19472, 20626, 21848, 23143, 24514, 25967]

/-- Multipliers of codes 112–127 (R130). -/
def gainRow7 : List Nat :=
  [27506, 29135, 30862, 32690, 34627, 36679, 38853, 41155, 43593, 46176, 48913, 51811, 54881, 58133, 61577, 65226]

/-- The gain table: m(0) is 0, and m(g) is 16384 × 10^((g − 103)/40) rounded half up (R130). -/
def gainTable : List Nat :=
  gainRow0 ++ gainRow1 ++ gainRow2 ++ gainRow3 ++ gainRow4 ++ gainRow5 ++ gainRow6 ++ gainRow7

/-- m(g) (R130). -/
def gain (g : Nat) : Nat := gainTable.getD g 0

end Sys2Proof.Machine
end

