-- ==== Sys2Proof/Machine/Mix.lean ====
section
/-! DEFINITION. The mix of a cycle: effective codes (R131–R133), programme (R134), voices (R137, R139), ramps (R140), terms and sum
(R141, R142), and the outputs (R143–R145). -/

namespace Sys2Proof.Machine

/-! ### Effective codes (R131–R133) -/

/-- The mix level of a feed (R131). -/
def mixLevel (mixing : Bool) (f : Feed) : Nat :=
  if mixing then (if f.exclusive then 7 else f.admitted.foldl (fun m e => max m e.level) 0) else f.currentLevel

/-- The level dim of mix level `l`: none is full cut (R131). -/
def levelDim (c : FeedCfg) (l : Nat) : Option Nat :=
  match l with
  | 0 => some 0
  | l + 1 =>
    if 6 ≤ l then none
    else
      let d := c.dims.getD l 0
      if d = 255 then none else some d

/-- The talk-dim of feed `i` (R132). -/
def State.talkDim (s : State) (i : Nat) : Nat :=
  let c := s.feedCfg i
  match c.dimSource with
  | 1 => if (s.source 0).need then c.talkDim else 0
  | 2 => if (s.source 1).need then c.talkDim else 0
  | _ => 0

/-- The effective programme code (R133). -/
def programmeCode (c : FeedCfg) (l t : Nat) : Nat :=
  match levelDim c l with
  | some d => c.progGain - d - t
  | none => 0

/-- The effective voice code (R133). -/
def voiceCode (c : FeedCfg) (t : Nat) : Nat := c.talkGain - t

/-! ### Blocks (R134, R137) -/

/-- Lane samples as 24-bit ones: as carried in FINE, widened in DENSE (R134, R138). -/
def State.laneSamples (s : State) (b : Block) : Block := if s.fine then toBlock b else (toBlock b).map widen

/-- The stored slot of lane `l`, if it was heard in the cycle before this one with a good check, in ACTIVE, the only state in which
slots are mixed (R129, R137, R147; log 25). -/
def State.freshSlot (s : State) (l : Nat) : Option Slot :=
  match s.mx.store.getD l none with
  | some t => if s.active && t.good && t.cycle + 1 == s.mx.cycle then some t.slot else none
  | none => none

/-- The block of programme `p`, and the lane chosen or none: programme absent (R134). -/
def State.programmeBlock (s : State) (p : Nat) : Block × Option Nat :=
  match s.programmeLane p with
  | none => (zeroBlock, none)
  | some (h, l) =>
    match s.freshSlot l with
    | some t =>
      (if t.holder == h && t.source == 4 && t.programme == p && !t.quiet then s.laneSamples t.samples else zeroBlock, some l)
    | none => (zeroBlock, some l)

/-- A programme selection of PROG p (R212). -/
def selectsLane (c : FeedCfg) : Bool := decide (1 ≤ c.programme ∧ c.programme ≤ 8)

/-- The programme block of feed `i`, and the lane chosen (R134). -/
def State.programmeOf (s : State) (i : Nat) : Block × Option Nat :=
  let c := s.feedCfg i
  if c.programme = 15 then (s.mx.localBlock, none)
  else if selectsLane c then s.programmeBlock c.programme
  else (zeroBlock, none)

/-- The voice block of an audible entry (R137). -/
def State.voiceBlock (s : State) (e : Entry) : Block :=
  if e.chain.isEmpty then
    match s.freshSlot e.lane with
    | some t => if t.holder == e.talker && t.source == e.source && !t.quiet then s.laneSamples t.samples else zeroBlock
    | none => zeroBlock
  else e.played.getD zeroBlock

/-! ### Ramps (R140) -/

/-- The value at which a multiplier ends a mix (R140). -/
def rampEnd (code a t : Nat) : Nat :=
  let d := 256 * code
  if code = 0 then t
  else if a ≤ t then (if t - a ≤ d then t else a + d)
  else (if a - t ≤ d then t else a - d)

/-- The multiplier of sample `n` of a ramp from `a` to `b` (R140). -/
def rampAt (a b n : Nat) : Int := (a : Int) + (((b : Int) - a) * ((n : Int) + 1)).tdiv 48

/-- The term of a sample with a multiplier (R141). -/
def term (x k : Int) : Int := (x * k + 8192) / 16384

/-- A part of the mix: a block with a ramped multiplier. -/
structure Part where
  block : Block
  start : Nat
  stop : Nat
deriving DecidableEq, Repr

/-- The term of sample `n` of a part. -/
def Part.at (p : Part) (n : Nat) : Int := term (Block.at p.block n) (rampAt p.start p.stop n)

/-- The exact sum of sample `n` (R142). -/
def sumAt (parts : List Part) (tone : Nat → Sample) (n : Nat) : Int := (parts.map fun p => p.at n).sum + tone n

/-- The block of 48 sums, before the clamp. -/
def mixSums (parts : List Part) (tone : Nat → Sample) : List Int := (List.range 48).map (sumAt parts tone)

/-! ### The mix of a feed (R129, R139–R145) -/

/-- What a mix of a feed is made of. -/
structure MixInput where
  view : MixView
  programme : Part
  voices : List (Entry × Part)
  absent : Bool
deriving DecidableEq, Repr

/-- The parts of the mix of feed `i` as the blocks stand. -/
def State.mixInput (s : State) (i : Nat) : MixInput :=
  let c := s.feedCfg i
  let f := s.feed i
  let l := mixLevel (mixingFeed c) f
  let t := s.talkDim i
  let pc := programmeCode c l t
  let vc := voiceCode c t
  let prog := s.programmeOf i
  let a := (s.mix i).prog.getD 0
  let voice := fun e : Entry =>
    (e, { block := s.voiceBlock e, start := e.voice.getD 0, stop := rampEnd c.ramp (e.voice.getD 0) (gain vc) : Part })
  let voices := (audible (mixingFeed c) f).map voice
  { view := ⟨l, t, pc, vc, prog.2, voices.map fun v => v.2.stop⟩
    programme := ⟨prog.1, a, rampEnd c.ramp a (gain pc)⟩
    voices := voices
    absent := selectsLane c && prog.2.isNone }

/-- The parts in one list. -/
def MixInput.parts (m : MixInput) : List Part := m.programme :: m.voices.map Prod.snd

/-- The amplitude of a feed's tone (R158). -/
def toneAmplitude (c : FeedCfg) : Int := (1048576 * (gain c.toneGain : Int) + 8192) / 16384

/-- The sums of the mix of feed `i`. -/
def State.feedSums (s : State) (i : Nat) : List Int :=
  let c := s.feedCfg i
  mixSums (s.mixInput i).parts (toneSample c (toneAmplitude c) (s.tone i))

/-- The value that an entry's voice multiplier holds after the mix: its part's end when it was audible, else none (R139). -/
def voiceAfter (voices : List (Entry × Part)) (e : Entry) : Option Nat :=
  (voices.find? fun v => Entry.isFor e.talker e.source v.1).map fun v => v.2.stop

/-- The playout buffer after a mix: the oldest samples leave when fewer than 48 places are free (R144). -/
def appendPlayout (p : List Sample) (b : Block) : List Sample :=
  let q := p ++ b
  q.drop (q.length - playoutPlaces)

/-- Write what the mix of feed `i` leaves: the multipliers, the flags and the values seen by QUERY FEED (R139, R143, R149). -/
def State.writeMix (s : State) (i : Nat) (m : MixInput) (clipped : Bool) : State :=
  let record := fun e : Entry => { e with voice := voiceAfter m.voices e }
  (s.modMix i fun x =>
    { x with
      prog := some m.programme.stop
      absent := m.absent
      clip := x.clip || clipped
      last := some m.view }).modFeed i fun f =>
    { f with
      stack := f.stack.map record
      admitted := f.admitted.map record
      deferred := f.deferred.map record }

/-- Hand the block of feed `i` to its output or to the field bridge (R144, R145). -/
def State.deliver (s : State) (i : Nat) (b : Block) : State :=
  if i < 4 then s.modMix i fun x => { x with playout := appendPlayout x.playout b } else s.gather (i - 4) b

/-- The mix of feed `i` at an opening, its tone slot moved on by one mix (R129, R156). -/
def State.mixFeed (s : State) (i : Nat) : State :=
  let m := s.mixInput i
  let sums := s.feedSums i
  let out := sums.map clamp24
  let s1 := (s.writeMix i m (sums != out)).deliver i out
  s1.setTone i ((s1.tone i).map Tone.mixed)

/-- One sample of local output `i` (R144). -/
def State.outputSample (s : State) (i : Nat) : Sample :=
  if s.offline || !usedFeed (s.feedCfg i) then 0 else (s.mix i).playout.headD 0

/-- The outputs take a sample each (R144). -/
def State.takeOutputs (s : State) : State :=
  s.modMx fun m =>
    { m with
      outputs := (List.range 4).map s.outputSample
      mixes := (List.range 6).map fun i =>
        let x := m.mixes.getD i Mix.rest
        if i < 4 then { x with playout := x.playout.tail } else x }

end Sys2Proof.Machine
end

