-- ==== Sys2Proof/Machine/Line.lean ====
section
/-! DEFINITION. The line states and what each entry leaves in every block: OFFLINE (R11), MISMATCH and SILENCED (R14), ACTIVE (R8) and
LEAVING (R10). The tables of the blocks' chapters give the values (R20, R41, R43, R79, R108, R126, R148, R155, R159, R165, R184, R201). -/

namespace Sys2Proof.Machine

/-! ### OFFLINE (R11) -/

/-- Entry to OFFLINE: every collection is emptied and the configuration discarded; LINE-STATE is the one event left (R11, R193). The straps,
the microsecond count, the response being returned and the runs of input samples are no part of what is emptied. -/
def State.enterOffline (s : State) : State where
  li := { LineIf.rest s.li.strapNumber s.li.strapOrg with micros := s.li.micros }
  plt := Plt.rest s.li.strapOrg
  ku := Ku.rest
  tru := Tru.rest
  cia := Cia.rest
  mu := Mu.rest
  mx := { Mx.rest with localRun := s.mx.localRun }
  vd := { Vd.rest with micA := s.vd.micA, micB := s.vd.micB }
  tcu := Tcu.rest
  fb := Fb.rest
  cp := ⟨none, [.lineState s.li.lineState .offline none], s.cp.response, false⟩
  owed := []
  pending := s.pending

/-! ### MISMATCH and SILENCED (R14) -/

/-- A key when its station leaves ACTIVE (R43). -/
def Key.left (r : Key) : Key := { r with logical := .idle, latch := false, pressLength := 0, resolved := none }

/-- Entry to MISMATCH or SILENCED: driving stops, the talk state of every block is emptied without transmission, and LINE-STATE is
raised with the organisation code heard or the cause (R14, R21). -/
def State.enterDead (s : State) (st : LineState) (detail : Nat) : State :=
  let li' := { s.li with
    lineState := st, marker := false, holdoff := none, interval := none, queue := [], leavingCount := 0, driving := none }
  let s' : State := { s with
    li := li'
    plt := Plt.rest s.li.strapOrg
    ku := ⟨s.ku.keys.map Key.left⟩
    tru := { Tru.rest with serial := s.tru.serial }
    cia := ⟨s.cia.feeds.map fun f => { Feed.rest with reply := f.reply }⟩
    mu := Mu.rest
    tcu := Tcu.rest
    fb := { s.fb with chans := s.fb.chans.map Chan.idled } }
  s'.raise (.lineState s.li.lineState st (some detail))

/-- The code of a SILENCED cause: the four cases of R13, in order (R211). -/
def SilencedCause.code : SilencedCause → Nat
  | .listeningOwn => 1
  | .foreignStamp => 2
  | .ownNotSent => 3
  | .readback => 4

/-- Entry to SILENCED (R13). -/
def State.silence (s : State) (cause : SilencedCause) : State := s.enterDead .silenced cause.code

/-! ### ACTIVE (R8) -/

/-- The station's PRESENCE (R26). -/
def State.presence (s : State) (fresh : Bool) : Message :=
  .presence fresh (s.li.joinStamp.getD 0) (s.cfg.station.fieldEnable == 1) s.cfg.station.published

/-- The station's own peer entry in ACTIVE (R22). -/
def State.ownPeer (s : State) (stamp : Nat) : Peer :=
  ⟨true, 0, some stamp, s.cfg.station.fieldEnable == 1, s.cfg.station.published⟩

/-- Entry to ACTIVE by a mark that began at `start`: the join stamp is taken, the own entry becomes PRESENT, framing starts, LINE-STATE is
raised, the *new* PRESENCE is offered, and S4 gets its need (R8, R22, R31, R180). LINE-STATE stands before a LANE-WAIT of S4, where R198 takes
either order: DESIGN CHOICE (log 30). -/
def State.enterActive (s : State) (start : Nat) : State :=
  let stamp := start % 65536
  let s1 := s.modLi fun li =>
    { li with lineState := .active, joinStamp := some stamp, activeCycles := 0, leavingCount := 0 }
  let s2 := (s1.modPeer s.number fun _ => s.ownPeer stamp).modFb fun b => b.entered (s.cfg.station.fieldEnable == 1)
  let s3 := (s2.raise (.lineState s.li.lineState .active none)).offer (s1.presence true)
  if s.cfg.station.published = 0 then s3 else s3.setNeed 4

/-! ### LEAVING (R10, R11) -/

/-- LEAVING is entered: every message that is not a TALK-CLOSE is removed, but one locked in a slot waits for its outcome (R10). -/
def purge (q : List OutMsg) : List OutMsg :=
  q.filterMap fun o =>
    if isClose o.msg then some o else if o.locked then some { o with drop := some .leaving } else none

/-- The record of tag `g` on entry to LEAVING (R10, R79). -/
def State.leavePath (s : State) (g : Nat) : State :=
  match s.path g with
  | none => s
  | some p =>
    match p.state with
    | .preparing => s.freePath g
    | .issued => if s.lockedMsg (isOpenOf g) then s else s.freePath g
    | .opened => s.closeOpened g { p with successor := none }
    | .closing =>
      let m := Message.talkClose p.req.source g
      let s' := s.setPath g (some { p with successor := none, closePending := p.closePending && !s.admits m })
      if p.closePending then s'.offer m else s'

/-- The talk request unit on entry to LEAVING (R79). The TALK-CLOSEs are offered in the order of their tags, where R10 and R79 give none:
DESIGN CHOICE (log 31). -/
def State.leavePaths (s : State) : State :=
  ((List.range 14).foldl State.leavePath s).modTru fun t =>
    { t with outstanding := [], movePending := List.replicate 4 false }

/-- The bridge on entry to LEAVING: its paths are closed, both channels go IDLE and their needs end (R183). -/
def State.leaveField (s : State) : State :=
  let s1 := (s.closeTalk 0).closeTalk 1
  let s2 := s1.modFb fun b => { b with chans := b.chans.map Chan.idled }
  (s2.clearNeed 2).clearNeed 3

/-- The end test of LEAVING: no TALK-CLOSE is left, and no locked message waits for its outcome (R11). -/
def State.endTest (s : State) : State :=
  if s.leaving && !s.queued isClose && !s.lockedMsg (fun _ => true) then s.enterOffline else s

/-- Entry to LEAVING, but for the end test (R10, R31, R43, R79, R183). -/
def State.beginLeaving (s : State) : State :=
  let s1 := s.modLi fun li => { li with lineState := .leaving, leavingCount := 0, queue := purge li.queue }
  let s2 : State := { s1 with ku := ⟨s1.ku.keys.map Key.left⟩ }
  let s3 := (((s2.leaveLanes).leavePaths).leaveField).clearNeed 4
  s3.raise (.lineState s.li.lineState .leaving none)

/-- Entry to LEAVING, with the end test (R10, R11). -/
def State.enterLeaving (s : State) : State := s.beginLeaving.endTest

/-! ### Mark duty (R4, R5, R7) -/

/-- The holdoff of station N (R4). -/
def State.holdoffTime (s : State) : Nat := 1024 + 4 * s.number

/-- The station marks: LISTENING, ACTIVE and LEAVING (R4). -/
def State.marks (s : State) : Bool := s.listening || s.active || s.leaving

/-- The station starts to send its mark at `t` (R4, R5). -/
def State.startMark (s : State) (t : Nat) : State :=
  let start := max s.li.micros t
  s.modLi fun li => { li with micros := start, driving := some (.mark start) }

/-- The holdoff timer expires (R4). -/
def State.holdoffExpired (s : State) : State :=
  match s.li.holdoff, s.li.driving with
  | some t, none => if s.marks then (s.startMark t).modLi fun li => { li with holdoff := none } else s
  | _, _ => s

/-- The mark interval timer expires (R5). -/
def State.intervalExpired (s : State) : State :=
  match s.li.interval, s.li.driving with
  | some t, none =>
    if (s.active || s.leaving) && s.li.marker then (s.startMark t).modLi fun li => { li with interval := none } else s
  | _, _ => s

/-- Mark duty is dropped (R5). -/
def LineIf.dropDuty (li : LineIf) : LineIf := { li with marker := false, interval := none }

/-- The mark is sent: MARKER is set and the interval runs from the mark's start; in LISTENING the station becomes ACTIVE (R5, R7). -/
def State.markDone (s : State) : State :=
  match s.li.driving with
  | some (.mark start) =>
    let s' := s.modLi fun li => { li with marker := true, interval := some (start + 1000), driving := none }
    if s.listening then s'.enterActive start else s'
  | _ => s

/-- The mark is lost: MARKER is cleared (R5). -/
def State.markMissed (s : State) : State :=
  match s.li.driving with
  | some (.mark _) => s.modLi fun li => { li.dropDuty with driving := none }
  | _ => s

/-! ### Colliding slots (R37) -/

/-- Source `n` has an open path. -/
def State.hasOpenPath (s : State) (n : Nat) : Bool :=
  (List.range 14).any fun g => (s.path g).any fun p => p.state == .opened && p.req.source == n

/-- The winner of a slot refreshes its peer entry (R37, R22). A winner that is no station number has none (log 8). -/
def State.refreshWinner (s : State) (w : Nat) : State := if badStation w then s else s.refreshPeer w

/-- The slot of lane `l`, which source `n` held, is lost to station `w` (R37, R70, R71). The withdrawals of the lost lane come before the new
LANE-CLAIM is offered, where the rules give no order: DESIGN CHOICE (log 30). -/
def State.slotMissed (s : State) (l n w : Nat) : State :=
  let s1 := (s.setLane l (.held w 0 0 0 true)).refreshWinner w
  if s.active then
    let moved := s.hasOpenPath n
    ((s1.laneLost n).modSource n fun r => { r with moved := r.moved || moved }).pick n
  else s1.modSource n fun r => { r with phase := .idle }

/-- The station loses the slot it is driving to station `w` (R37). A lane that has stopped being MINE in the middle of its slot is no
longer the station's: it stops driving, the lane keeps its record and the winner's entry is not refreshed. DESIGN CHOICE (log 26). -/
def State.slotLost (s : State) (w : Nat) : State :=
  match s.li.driving with
  | some (.slot l _) =>
    let s' := s.modLi fun li => { li with driving := none }
    match s.lane l with
    | .mine n => if s.active || s.leaving then s'.slotMissed l n w else s'
    | _ => s'
  | _ => s

end Sys2Proof.Machine
end

