-- ==== Sys2Proof/Machine/Slots.lean ====
section
/-! DEFINITION. The message window and the lane slots: offering a message and the outcome of its slot (R15, R18, R19), heard messages
(R9, R13, R22, R25, R208), heard marks (R7, R12, R13) and lane slots (R28, R39, R129). -/

namespace Sys2Proof.Machine

/-! ### The own message in a slot (R15, R18, R19) -/

/-- Any message. -/
def anyMsg (_ : Message) : Bool := true

/-- The microsecond at which message slot `i` of this cycle begins (R203). -/
def State.slotTime (s : State) (i : Nat) : Nat := s.li.markStart + messageSlotBit i / 25

/-- The head of the queue is locked. -/
def lockHead : List OutMsg → List OutMsg
  | [] => []
  | o :: rest => { o with locked := true } :: rest

/-- A message slot begins: in ACTIVE or LEAVING the head of the queue is offered, unless a message was sent earlier in this cycle
(R15, R18). -/
def State.openSlot (s : State) (i : Nat) : State :=
  if (s.active || s.leaving) && !s.li.sentThisCycle && !s.li.queue.isEmpty && s.li.driving.isNone
      && !s.lockedMsg anyMsg then
    (s.passTo (s.slotTime i)).modLi fun li => { li with queue := lockHead li.queue, driving := some .message }
  else s

/-- The message locked in the slot. -/
def State.inSlot (s : State) : Option OutMsg := s.li.queue.find? OutMsg.locked

/-- The locked message leaves the queue. -/
def LineIf.unqueue (li : LineIf) : LineIf := { li with queue := li.queue.eraseP OutMsg.locked, driving := none }

/-- The report that the TALK-OPEN of tag `g` has been sent: to the key, or to the bridge for tags 12 and 13 (R62). -/
def State.reportSent (s : State) (g : Nat) : State :=
  if g < 12 then s.modKey g Key.reported else s.modChan (g - 12) Chan.reported

/-- A withdrawal that ends the path. -/
def endsPath : Option Withdrawal → Bool
  | some .close => true
  | some .leaving => true
  | _ => false

/-- The sent-notice of a TALK-OPEN: OPEN, reported, and closed at once where a close waited for the outcome (R62, R63, R10). A key that
was pressed again meanwhile is moved to OPEN or LATCHED by this report though the path is closed (log 14). -/
def State.talkOpenSent (s : State) (m : TalkOpen) (drop : Option Withdrawal) : State :=
  let s1 := (s.openSent m).reportSent m.tag
  match s1.path m.tag with
  | some p => if endsPath drop && p.state == .opened then s1.closeOpened m.tag { p with successor := none } else s1
  | none => s1

/-- The sent-notice of a message to the block that offered it (R19). A re-announce that a close waited for is followed by the TALK-CLOSE
(R63, log 29). -/
def State.sentNotice (s : State) (o : OutMsg) : State :=
  match o.msg with
  | .laneClaim l n => s.claimSent n l o.drop
  | .talkOpen m =>
    if m.reannounce then (if o.drop.isSome then s.retryClose m.tag else s) else s.talkOpenSent m o.drop
  | .talkMove n l => s.moveSent n l
  | .talkClose _ g => s.closeSent g
  | .call k _ _ => s.callSent k
  | _ => s

/-- The message in the slot is sent (R15, R19); in LEAVING the end test follows (R11). -/
def State.messageDone (s : State) : State :=
  match s.li.driving, s.inSlot with
  | some .message, some o =>
    let s1 := s.modLi fun li => { li.unqueue with sentThisCycle := true }
    let s2 := s1.sentNotice o
    if s.leaving then s2.endTest else s2
  | _, _ => s

/-- What a withdrawal that waited does when the message is lost (R18, R32, R63, R70). -/
def State.withdrawn (s : State) (o : OutMsg) : State :=
  match o.msg, o.drop with
  | .talkOpen m, some .laneLost =>
    match s.path m.tag with
    | some p =>
      if !m.reannounce && p.state == .issued then
        s.setPath m.tag (some { p with state := .preparing, serial := none, lane := none })
      else s
    | none => s
  | .talkOpen m, some _ => if m.reannounce then s.retryClose m.tag else s.freePath m.tag
  | .laneClaim l n, some .repick => if (s.source n).phase == .pending l then s.pick n else s
  | _, _ => s

/-- The message in the slot is lost: it keeps its place, or leaves the queue where a withdrawal waited (R15, R18). -/
def State.messageMissed (s : State) : State :=
  match s.li.driving, s.inSlot with
  | some .message, some o =>
    let s2 :=
      if o.drop.isSome then (s.modLi LineIf.unqueue).withdrawn o
      else s.modLi fun li =>
        { li with queue := li.queue.map fun x => { x with locked := false }, driving := none }
    if s.leaving then s2.endTest else s2
  | _, _ => s

/-! ### Heard messages (R9, R13, R22, R208) -/

/-- Whether a PRESENCE bears a join stamp other than the station's own (R13). -/
def State.foreignStamp (s : State) (m : Message) : Bool :=
  match m with
  | .presence _ stamp _ _ => s.li.joinStamp != some stamp
  | _ => false

/-- Why a heard message bearing the own number silences the station, if it does (R13, R208). Of two causes the one R13 lists first
is reported (log 7). -/
def State.ownNumberCause (s : State) (env : Envelope) (m : Message) : Option SilencedCause :=
  if s.listening then some .listeningOwn
  else if s.foreignStamp m && !malformed s.laneCount env m then some .foreignStamp
  else if !env.own then some .ownNotSent
  else none

/-- A heard message: discarded when its check fails or it is malformed; one bearing the own number may silence the station; else the
sender's entry is refreshed by `refresh` and the message is handed on by `act`, in ACTIVE (R3, R7, R9, R13, R22, R208). `listen` is
what the peer and lane table does with it in LISTENING and ACTIVE alike. -/
def State.hear (s : State) (env : Envelope) (m : Message) (refresh listen act : State → State) : State :=
  let bad := malformed s.laneCount env m
  if s.hears && env.good then
    if env.sender = s.number then
      match s.ownNumberCause env m with
      | some cause => s.silence cause
      | none => if bad then s else act s
    else if bad then s
    else
      let s1 := listen (refresh s)
      if s.active then act s1 else s1
  else s

/-- The peer entry of a PRESENCE (R22, R25). -/
def presencePeer (stamp programme : Nat) (field : Bool) : Peer := ⟨true, 0, some stamp, field, programme⟩

/-- A PRESENCE of station `p`: a differing stamp is a restart, which is first treated as a loss (R22, R25). -/
def State.notePresence (p stamp programme : Nat) (field : Bool) (s : State) : State :=
  let e := s.peer p
  let restart := e.present && e.stamp.any fun x => x != stamp
  let s1 := if restart then s.peerGone p else s
  let s2 := s1.modPeer p fun _ => presencePeer stamp programme field
  if s.active && (restart || !e.present) then s2.raise (.peerChange p true (some stamp)) else s2

/-- A CUE of an origin (R161, R162). -/
def State.cueHeard (s : State) (origin dest seconds mode : Nat) : State :=
  if seconds = 0 then s.cueHalted origin dest else s.cueTaken origin dest seconds mode

/-! ### Heard lane slots (R7, R9, R13, R28) -/

/-- The station is driving the slot of lane `l`. -/
def State.drivesSlot (s : State) (l : Nat) : Bool :=
  match s.li.driving with
  | some (.slot k _) => k == l
  | _ => false

/-- Read-back of the own slot to its end (R2, R39). -/
def State.slotDone (s : State) (l : Nat) (own : Bool) : State :=
  if own && s.drivesSlot l then s.modLi fun li => { li with driving := none } else s

/-- The header of a good slot reaches the peer and lane table (R28). -/
def State.headerTaken (s : State) (l : Nat) (t : Slot) : State :=
  if t.holder = s.number then s
  else (s.refreshPeer t.holder).headerHeard l t.holder t.source t.programme

/-- The slot is written into the lane store (R129). -/
def State.storeSlot (s : State) (l : Nat) (good : Bool) (t : Slot) : State :=
  s.modMx fun m => { m with store := m.store.set l (some ⟨t, good, m.cycle⟩) }

/-- A heard slot of lane `l` whose header check outcome is `good` (R7, R9, R13, R28, R114, R129). The header is taken before the samples, so
LANE-WAIT of an own claim that fails stands before MEMO-STATE FULL of a lost block, where R198 takes either order: DESIGN CHOICE (log 30). -/
def State.slotHeard (s : State) (l : Nat) (good own : Bool) (t : Slot) : State :=
  if s.listening then
    if !good then s
    else if t.holder = s.number then s.silence .listeningOwn
    else s.headerTaken l t
  else if s.active then
    if good && t.holder == s.number && !own then s.silence .ownNotSent
    else ((if good then s.headerTaken l t else s).storeSlot l good t).capture l good t
  else s

/-- The microsecond at which lane slot `l` of this cycle begins (R203). -/
def State.laneTime (s : State) (l : Nat) : Nat := s.li.markStart + laneSlotBit s.li.strapOrg l / 25

/-- The station drives the slot of lane `l` when its view marks the lane MINE (R34, R39). -/
def State.driveSlot (s : State) (l : Nat) : State :=
  match s.lane l, s.li.driving with
  | .mine n, none =>
    if s.active || s.leaving then
      (s.passTo (s.laneTime l)).modLi fun li => { li with driving := some (.slot l (s.ownSlot n)) }
    else s
  | _, _ => s

/-! ### Read-back differs after the resolution field (R2, R13) -/

/-- The item being driven is taken as lost, in LEAVING (R2). A slot is lost to a station of the own number (log 8). -/
def State.itemMissed (s : State) : State :=
  match s.li.driving with
  | some (.mark _) => s.markMissed
  | some .message => s.messageMissed
  | some (.slot _ _) => s.slotLost s.number
  | none => s

/-- The read-back differs after the resolution field (R2, R13). -/
def State.readbackDiffers (s : State) : State :=
  if s.li.driving.isNone then s
  else if s.hears then s.silence .readback
  else if s.leaving then s.itemMissed
  else s

end Sys2Proof.Machine
end

