-- ==== Sys2Proof/Machine/Due.lean ====
section
/-! DEFINITION. The due steps of an opening that the opcode table lists apart: what each does, and how one is taken inside the opening or
left to its own command (log 4). Each step tests the record it acts on, so a step that another event has made needless does nothing. -/

namespace Sys2Proof.Machine

/-- A further PRESENCE is offered (R26). -/
def State.presenceFalls (s : State) : State := if s.active then s.offer (s.presence false) else s

/-- The silence age of station `p` has reached 1000 (R23). -/
def State.peerExpired (s : State) (p : Nat) : State :=
  let e := s.peer p
  if s.hears && p != s.number && e.present && decide (1000 ≤ e.age) then s.peerGone p else s

/-- The age of lane `l` has reached 4 (R30). -/
def State.laneExpired (s : State) (l : Nat) : State :=
  match s.lane l with
  | .held _ _ _ age _ => if s.hears && decide (4 ≤ age) then (s.setLane l .free).laneFreed else s
  | _ => s

/-- The claim window of lane `l` ends: the lane is MINE and is handed over, as moved when the flag is set (R34). -/
def State.claimWon (s : State) (l : Nat) : State :=
  match s.lane l with
  | .claiming n count =>
    if s.active && decide (2 ≤ count) then
      let moved := (s.source n).moved
      (((s.setLane l (.mine n)).modSource n fun r => { r with phase := .mine l, moved := false }).handOver n l moved)
    else s
  | _ => s

/-- The head of the outstanding request queue retires (R65). -/
def State.retireDue (s : State) : State := if s.active then s.retire else s

/-- The refresh of listed destination `d` (R77). -/
def State.refreshDue (s : State) (d : Nat) : State :=
  if s.active && s.tru.tallies.any (fun r => r.dest == d && decide (500 ≤ r.refresh)) then s.announceTally d else s

/-- The LEAVING count has reached 20 (R11). -/
def State.leavingOver (s : State) : State := if s.leaving && decide (20 ≤ s.li.leavingCount) then s.enterOffline else s

/-- The run count has reached 8 (R7). -/
def State.runComplete (s : State) : State := if s.listening && decide (8 ≤ s.li.runCount) then s.enterActive s.li.markStart else s

/-- A step of the arbiter or the clocks, in ACTIVE alone (R108, R165). -/
def State.inActive (s : State) (f : State → State) : State := if s.active then f s else s

/-- What a due step does. -/
def State.takeDue (s : State) : Due → State
  | .debounce k => s.debounced k
  | .presence => s.presenceFalls
  | .peer p => s.peerExpired p
  | .lane l => s.laneExpired l
  | .claim l => s.claimWon l
  | .retire => s.retireDue
  | .refresh d => s.refreshDue d
  | .defer i t src => s.inActive fun s => s.expireHeld i t src
  | .onAir i o d => s.inActive fun s => s.expireOnAir i o d
  | .callRepeat i c k => s.inActive fun s => s.repeatCall i c k
  | .callExpiry i c k => s.inActive fun s => s.expireCall i c k
  | .cueTone _ i p => s.inActive fun s => s.toneRequest i p
  | .cueZero c => s.inActive fun s => s.cueZero c
  | .tonePhase i => s.endPhase i
  | .hang n => s.hangEnd n
  | .leaving => s.leavingOver
  | .fieldLoss c => s.inActive fun s => s.loseChannel c
  | .runCount => s.runComplete

/-- A step falls due: it is taken at once, or left to its command where its kind is named in `apart` (log 4). -/
def State.raiseDue (apart : List DueKind) (d : Due) (s : State) : State :=
  if apart.contains d.kind then { s with owed := s.owed ++ [d] } else s.takeDue d

/-- The command of a due step: it is taken if the last opening left it. -/
def State.takeOwed (s : State) (d : Due) : State :=
  if s.owed.contains d then State.takeDue { s with owed := s.owed.erase d } d else s

/-- The tone request of clock `c`. -/
def Due.isToneOf (c : Nat) : Due → Bool
  | .cueTone k _ _ => k == c
  | _ => false

/-- The command of clock `c`'s tone request: the one that the last opening left is sent (R163). -/
def State.takeTone (s : State) (c : Nat) : State :=
  match s.owed.find? (Due.isToneOf c) with
  | some d => s.takeOwed d
  | none => s

/-- The command of clock `c`'s zero: a tone request of the same test is sent first (R164). -/
def State.takeZero (s : State) (c : Nat) : State :=
  if s.owed.contains (.cueZero c) then (s.takeTone c).takeOwed (.cueZero c) else s

/-- A frame that the bridge takes: on, in ACTIVE, with a good check (R167). -/
def State.takesFrame (s : State) (frame : FieldFrame) : Bool :=
  s.active && s.cfg.station.fieldEnable == 1 && frame.good && frame.length == 965

/-- The loss that the last opening left for channel `c`, which a frame for the channel comes after (R175). -/
def State.lossFirst (frame : FieldFrame) (s : State) (c : Nat) : State :=
  if framePresent frame c then s.takeOwed (.fieldLoss c) else s

/-- A frame arrives. The opening that left a channel's loss to its command came before the frame, so the loss is taken first (R175,
log 4). -/
def State.frameComes (s : State) (frame : FieldFrame) : State :=
  if s.takesFrame frame then ([0, 1].foldl (State.lossFirst frame) s).frameArrived frame else s.frameArrived frame

/-- What an opening finds left over is taken first. -/
def State.settle (s : State) : State := s.owed.foldl State.takeDue { s with owed := [] }

end Sys2Proof.Machine
end

