-- ==== Sys2Proof/Machine/Cycle.lean ====
section
/-! DEFINITION. The opening of a cycle (R1): the per-cycle steps of every block, in the order of log 4. -/

namespace Sys2Proof.Machine

/-! ### Line interface (R4, R5, R10, R26) -/

/-- The station is driving its mark. -/
def State.drivesMark (s : State) : Bool :=
  match s.li.driving with
  | some (.mark _) => true
  | _ => false

/-- The line interface at the start of a heard mark: the holdoff is reloaded, a mark the station is not sending ends its duty, and the
LEAVING count goes on (R1, R4, R5, R11). -/
def State.openLine (s : State) : State :=
  let foreign := !s.drivesMark
  let t := s.li.micros
  s.modLi fun li =>
    { li with
      markStart := t
      sentThisCycle := false
      holdoff := if s.marks then some (t + s.holdoffTime) else none
      marker := li.marker && !foreign
      interval := if foreign then none else li.interval
      leavingCount := if s.leaving then min (li.leavingCount + 1) 20 else li.leavingCount
      activeCycles := if s.active then li.activeCycles + 1 else li.activeCycles }

/-- The mix engine's cycle number and local programme block at an opening (R129, R135). -/
def State.openInputs (s : State) : State :=
  s.modMx fun m => { m with cycle := m.cycle + 1, localBlock := toBlock m.localRun }

/-- The periodic PRESENCE (R26). -/
def State.openPresence (apart : List DueKind) (s : State) : State :=
  if s.active && s.li.activeCycles % 250 == 0 then s.raiseDue apart .presence else s

/-! ### Key unit (R44, R45, R50) -/

/-- Key `k` at an opening with pin level `pin`. -/
def State.openKeyCycle (apart : List DueKind) (pins : List KeyLevel) (s : State) (k : Nat) : State :=
  let c := s.keyCfg k
  let pin := pins.getD k .up
  if c.fn = 0 then s
  else
    let s1 := s.modKey k fun r => r.counted c s.cfg.station.tapLimit
    match c.kind with
    | 0 =>
      if pin = (s1.key k).stable then s1.modKey k fun r => { r with debounce := 0 }
      else if (s1.key k).debounce < 7 then s1.modKey k fun r => { r with debounce := r.debounce + 1 }
      else s1.raiseDue apart (.debounce k)
    | 1 => s1.setLevel k pin
    | _ => s1

/-- The keys at an opening, K0 to K11. The manual gives no order for keys that change at one opening: DESIGN CHOICE (log 4). -/
def State.openKeys (apart : List DueKind) (pins : List KeyLevel) (s : State) : State :=
  (List.range 12).foldl (State.openKeyCycle apart pins) s

/-! ### Peer and lane table (R23, R30, R32, R34) -/

/-- The silence age of station `p` at an opening (R23). -/
def State.agePeer (apart : List DueKind) (s : State) (p : Nat) : State :=
  if p ≠ s.number ∧ (s.peer p).present then
    let s1 := s.modPeer p fun e => { e with age := min (e.age + 1) 1000 }
    if (s1.peer p).age < 1000 then s1 else s1.raiseDue apart (.peer p)
  else s

/-- The record of lane `l` at an opening (R30, R34). -/
def State.ageLane (apart : List DueKind) (s : State) (l : Nat) : State :=
  match s.lane l with
  | .held h src p age seen =>
    let s1 := s.setLane l (.held h src p (min (age + 1) 4) seen)
    if age + 1 < 4 then s1 else s1.raiseDue apart (.lane l)
  | .claiming n count => if count < 2 then s.setLane l (.claiming n (count + 1)) else s.raiseDue apart (.claim l)
  | _ => s

/-- A PENDING source whose claim stands in no queue picks again; the lane it had picked may serve a WAITING source (R32, R36). -/
def State.pickAgain (s : State) (n : Nat) : State :=
  match (s.source n).phase with
  | .pending l =>
    if s.claimQueued n l then s
    else
      let s1 := s.pick n
      if (s1.source n).phase == .pending l then s1 else s1.laneFreed
  | _ => s

/-- The peer and lane table at an opening, in LISTENING and ACTIVE (R23, R30, R32). The manual gives no order inside the table: the peers 1 to 62,
then the lanes from 0, then the PENDING sources without a claim, which so may pick a lane freed here: DESIGN CHOICE (log 4). -/
def State.openTable (apart : List DueKind) (s : State) : State :=
  if s.hears then
    let s1 := ((List.range 62).map fun p => p + 1).foldl (State.agePeer apart) s
    let s2 := (List.range s.laneCount).foldl (State.ageLane apart) s1
    if s2.active then (List.range 5).foldl State.pickAgain s2 else s2
  else s

/-! ### Field bridge (R173, R176) -/

/-- The loss count of channel `c` at an opening (R176). -/
def State.ageLoss (apart : List DueKind) (s : State) (c : Nat) : State :=
  let s1 := s.modChan c Chan.aged
  if (s1.chan c).lossDue then s1.raiseDue apart (.fieldLoss c) else s1

/-- The field bridge at an opening: the loss counts, then the playout steps (R173), each for channel A first: DESIGN CHOICE (log 4). -/
def State.openField (apart : List DueKind) (s : State) : State :=
  if s.active then [0, 1].foldl State.playout ([0, 1].foldl (State.ageLoss apart) s) else s

/-! ### Talk request unit, in the order of R61 -/

/-- The outstanding request queue ages (R65). -/
def State.ageOutstanding (apart : List DueKind) (s : State) : State :=
  let s1 := s.modTru fun t =>
    { t with outstanding := t.outstanding.map fun o => { o with age := min (o.age + 1) 16 } }
  if s1.tru.outstanding.head?.any fun o => decide (16 ≤ o.age) then s1.raiseDue apart .retire else s1

/-- The TALK-MOVE of a source that is move pending is offered again, with its MINE lane (R71). -/
def State.retryMove (s : State) (n : Nat) : State :=
  if s.tru.movePending.getD n false then
    match s.mineLane n with
    | some l => s.offerMove n l
    | none => s
  else s

/-- A re-announce that is pending is offered again (R72). -/
def State.retryReannounce (s : State) (g : Nat) : State := if s.reannouncePending g then s.reannounce g else s

/-- The refresh count of a listed destination at an opening (R77). -/
def State.ageTally (apart : List DueKind) (s : State) (d : Nat) : State :=
  let count := fun r : TallyOrigin => if r.dest == d then { r with refresh := min (r.refresh + 1) 500 } else r
  let s1 := s.modTru fun t => { t with tallies := t.tallies.map count }
  if s1.tru.tallies.any fun r => r.dest == d && decide (500 ≤ r.refresh) then s1.raiseDue apart (.refresh d) else s1

/-- The talk request unit at an opening in ACTIVE (R61). -/
def State.openRequests (apart : List DueKind) (s : State) : State :=
  if s.active then
    let s1 := s.ageOutstanding apart
    let s2 := (List.range 14).foldl State.retryClose s1
    let s3 := (List.range 4).foldl State.retryMove s2
    let s4 := (List.range 14).foldl State.retryReannounce s3
    let s5 := s4.offeringPass
    (s5.tru.tallies.map TallyOrigin.dest).foldl (State.ageTally apart) s5
  else s

/-! ### Cut-in arbiter (R99, R102, R105) -/

/-- The defer ages of feed `i` (R99); entries that expire at one opening leave from the head on: DESIGN CHOICE (log 4). -/
def State.ageHeld (apart : List DueKind) (s : State) (i : Nat) : State :=
  let limit := s.cfg.station.deferLimit
  let s1 := s.modFeed i fun f =>
    { f with deferred := f.deferred.map fun e => { e with deferAge := min (e.deferAge + 1) limit } }
  let due := (s1.feed i).deferred.filter fun e => decide (limit ≤ e.deferAge)
  due.foldl (fun s e => s.raiseDue apart (.defer i e.talker e.source)) s1

/-- The on-air records of feed `i` (R102). Those that expire at one opening leave in the order of their list, where R102 gives none, so the last of
them gives TALLY-CHANGE its destination: DESIGN CHOICE (log 4). -/
def State.ageOnAir (apart : List DueKind) (s : State) (i : Nat) : State :=
  let s1 := s.modFeed i fun f =>
    { f with onAir := f.onAir.map fun r => { r with age := min (r.age + 1) 2000 } }
  let due := (s1.feed i).onAir.filter fun r => decide (2000 ≤ r.age)
  due.foldl (fun s r => s.raiseDue apart (.onAir i r.origin r.dest)) s1

/-- What an age asks of a call record (R105). -/
def callDue (apart : List DueKind) (i : Nat) (s : State) (r : CallRec) : State :=
  if 30000 ≤ r.age then s.raiseDue apart (.callExpiry i r.caller r.key)
  else if r.urgent && callRepeatAge r.age then s.raiseDue apart (.callRepeat i r.caller r.key)
  else s

/-- The call list of feed `i` (R105). Repeats and expiries of one opening come in the order of the list, oldest first, where R105 gives none: DESIGN
CHOICE (log 4). -/
def State.ageCalls (apart : List DueKind) (s : State) (i : Nat) : State :=
  let s1 := s.modFeed i fun f =>
    { f with calls := f.calls.map fun r => { r with age := min (r.age + 1) 30000 } }
  (s1.feed i).calls.foldl (callDue apart i) s1

/-- The arbiter at an opening in ACTIVE (R99, R102, R105): feed by feed, the held entries, the on-air records, the calls. The manual
gives these expiries no order: DESIGN CHOICE (log 4). -/
def State.openArbiter (apart : List DueKind) (s : State) : State :=
  if s.active then
    (List.range 6).foldl (fun s i => ((s.ageHeld apart i).ageOnAir apart i).ageCalls apart i) s
  else s

/-! ### Cue clocks (R163, R164) -/

/-- The request of clock `c` of feed `i` at its count `r` (R163). -/
def State.testClock (apart : List DueKind) (s : State) (c i r : Nat) : State :=
  match cuePattern r (s.lead i) with
  | some p => s.raiseDue apart (.cueTone c i p)
  | none => s

/-- Clock `c` at an opening (R163, R164). A zero comes after the request of the same test: where that is left to its command, so is the
zero. -/
def State.tickClock (apart : List DueKind) (s : State) (c : Nat) : State :=
  match s.clock c with
  | some k =>
    let r := k.remaining - 1
    let s1 := (s.setClock c (some { k with remaining := r })).testClock apart c k.feed r
    let late := if s1.owed.any (Due.isToneOf c) then .cueZero :: apart else apart
    if r = 0 then s1.raiseDue late (.cueZero c) else s1
  | none => s

/-- The cue clocks at an opening in ACTIVE (R163). -/
def State.openClocks (apart : List DueKind) (s : State) : State :=
  if s.active then (List.range 4).foldl (State.tickClock apart) s else s

/-! ### Voice detector (R150) -/

/-- Source `n` at an opening (R150, R153). -/
def State.openSource (apart : List DueKind) (s : State) (n : Nat) : State :=
  let s1 := s.evaluate n
  if (s1.vox n).hangDue (s.sourceCfg n) then s1.raiseDue apart (.hang n) else s1

/-- The voice detector at an opening (R150). -/
def State.openVoices (apart : List DueKind) (s : State) : State := (List.range 4).foldl (State.openSource apart) s

/-! ### Memo reads and mixes (R116, R129, R156) -/

/-- No entry of feed `i` has a block read for it yet at this opening (R116). -/
def State.clearPlayed (s : State) (i : Nat) : State :=
  let clear := fun e : Entry => { e with played := none }
  s.modFeed i fun f =>
    { f with stack := f.stack.map clear, admitted := f.admitted.map clear, deferred := f.deferred.map clear }

/-- Feed `i` at an opening: the read pass in ACTIVE, the mix, and a tone phase that the mix completes (R116, R129, R156). -/
def State.openFeed (apart : List DueKind) (s : State) (i : Nat) : State :=
  if usedFeed (s.feedCfg i) then
    let s1 := s.clearPlayed i
    let s2 := (if s.active then s1.readPass i else s1).mixFeed i
    if (s2.tone i).any Tone.phaseDone then s2.raiseDue apart (.tonePhase i) else s2
  else s

/-- The feeds at an opening. -/
def State.openFeeds (apart : List DueKind) (s : State) : State := (List.range 6).foldl (State.openFeed apart) s

/-! ### The opening -/

/-- The steps of the talk blocks at an opening, up to the mixes. -/
def State.openBlocks (pins : List KeyLevel) (apart : List DueKind) (s : State) : State :=
  let s1 := (s.openPresence apart).openKeys apart pins
  let s2 := (s1.openTable apart).openField apart
  let s3 := ((s2.openRequests apart).openArbiter apart).openClocks apart
  (s3.openVoices apart).openFeeds apart

/-- A cycle opens (R1). In OFFLINE nothing is heard; at the 20th opening of LEAVING nothing else is done (R11). -/
def State.openCycle (s : State) (pins : List KeyLevel) (apart : List DueKind) : State :=
  let s0 := s.settle
  if s0.offline then s0
  else
    let s1 := s0.openLine.openInputs
    if s1.leaving && decide (20 ≤ s1.li.leavingCount) then s1.raiseDue apart .leaving
    else s1.openBlocks pins apart

/-! ### Heard marks (R7, R12, R13) -/

/-- A mark is counted in LISTENING: at the eighth the run is complete (R7). -/
def State.countMark (apart : List DueKind) (s : State) : State :=
  let s1 := s.modLi fun li => { li with runCount := min (li.runCount + 1) 8 }
  if s1.li.runCount < 8 then s1 else s1.raiseDue apart .runCount

/-- A good mark of organisation `org` and station `n` in LISTENING or ACTIVE: the organisation is tested first, then the number
(R7, R12, R13). -/
def State.goodMarkHeard (s : State) (m : HeardMark) (apart : List DueKind) : State :=
  if m.org ≠ s.li.strapOrg then s.enterDead .mismatch m.org
  else if m.number = s.number then
    if m.own then s else s.silence (if s.listening then .listeningOwn else .ownNotSent)
  else
    let s1 := s.refreshPeer m.number
    if s.listening then s1.countMark apart else s1

/-- A heard mark (R3, R5, R7, R9, R12, R13, R208). -/
def State.markHeard (s : State) (m : HeardMark) (apart : List DueKind) : State :=
  let s1 := if s.marks && !m.own then s.modLi LineIf.dropDuty else s
  if s.hears then
    if goodMark m then s1.goodMarkHeard m apart
    else if s.listening then s1.modLi fun li => { li with runCount := 0 }
    else s1
  else s1

end Sys2Proof.Machine
end

