-- ==== Sys2Proof/Machine/Startup.lean ====
section
/-! DEFINITION. START: the validation of the configuration block (R42, R56, R81, R110, R146, R155, R165, R182, R192) and what an accepted
START leaves in every block (R191). -/

namespace Sys2Proof.Machine

/-- One check of the validation: whether it fails, its reason and its item. -/
structure Check where
  fails : Bool
  reason : RefuseReason
  item : StartItem
deriving DecidableEq, Repr

/-- A value outside a range. -/
def outside (lo hi n : Nat) : Bool := decide (n < lo) || decide (hi < n)

/-- A destination listed twice. -/
def listedTwice (ds : List Nat) : Bool := !decide ds.Nodup

/-- A destination 0 or 63 (R55). -/
def noStation (d : Nat) : Bool := d == 0 || d == 63

/-- A destination outside 64–254 (R55). -/
def notAssignable (d : Nat) : Bool := outside 64 254 d

/-- STRAPS (R192). -/
def strapChecks (number org : Nat) : List Check :=
  [⟨number == 0 || number == 63, .badStrap, .straps⟩, ⟨lanesOf org == 0, .badStrap, .straps⟩]

/-- STATION (R192). -/
def stationChecks (c : StationCfg) : List Check :=
  [⟨outside 1000 60000 c.deferLimit, .badRange, .station⟩,
    ⟨outside 100 1000 c.tapLimit, .badRange, .station⟩,
    ⟨outside 0 1 c.fieldEnable, .badRange, .station⟩,
    ⟨outside 2 6 c.targetFill, .badRange, .station⟩,
    ⟨outside 0 8 c.published, .badRange, .station⟩,
    ⟨outside 0 4 c.homeFeed, .badRange, .station⟩]

/-- The detector checks of source `n` (R155). -/
def voxChecks (n : Nat) (c : SourceCfg) : List Check :=
  [⟨outside 0 1 c.vox || outside 0 7 c.threshold || outside 50 2000 c.hang, .badRange, .source n⟩]

/-- The open-talk checks of source `n` (R182). -/
def openTalkChecks (n : Nat) (c : OpenTalkCfg) : List Check :=
  [⟨decide (4 < c.count), .badRange, .source n⟩,
    ⟨c.dests.any noStation, .badDest, .source n⟩,
    ⟨listedTwice c.dests, .dupDest, .source n⟩,
    ⟨c.count != 0 && outside 1 7 c.level, .badLevel, .source n⟩]

/-- The checks of source `n`. -/
def sourceChecks (c : Configuration) (n : Nat) : List Check :=
  voxChecks n (c.sources.getD n SourceCfg.absent)
    ++ if n < 2 then [] else openTalkChecks n (c.openTalk.getD (n - 2) OpenTalkCfg.absent)

/-- The BAD-KEY conditions of a key in use (R42, R192). -/
def badKey (c : KeyCfg) : Bool :=
  decide (2 < c.kind) || decide (2 < c.mode) || decide (1 < c.callKind)
    || ((c.fn == 1 || c.fn == 3) && decide (1 < c.source))
    || ((c.fn == 1 || c.fn == 2) && outside 1 4 c.count)
    || (c.fn == 3 && decide (3 < c.replyFeed))
    || (c.kind == 1 && c.mode != 0)

/-- The checks of key `k` (R42, R192). -/
def keyChecks (k : Nat) (c : KeyCfg) : List Check :=
  let talks := c.fn == 1 || c.fn == 3
  let addressed := c.fn == 1 || c.fn == 2
  [⟨decide (3 < c.fn), .badKey, .key k⟩,
    ⟨c.fn != 0 && badKey c, .badKey, .key k⟩,
    ⟨talks && outside 1 7 c.level, .badLevel, .key k⟩,
    ⟨addressed && c.dests.any noStation, .badDest, .key k⟩,
    ⟨addressed && listedTwice c.dests, .dupDest, .key k⟩]

/-- A type that feed `i` may have (R81). -/
def typeAllowed (i type : Nat) : Bool := if i < 4 then decide (type ≤ 2) else type == 0 || type == 3

/-- The home flag of feed `i` is in error: the setting names it and the flag is clear, or the flag is set on a feed that is not named,
is F4 or F5, or has type NONE. The setting 4 is NONE and names no feed (R56, R81, R212). -/
def homeError (home i : Nat) (c : FeedCfg) : Bool :=
  (decide (i < 4) && home == i) != c.home || (c.home && c.type == 0)

/-- A mix, tone or cue setting of feed `i` is out of range (R146, R165). -/
def badMix (i : Nat) (c : FeedCfg) : Bool :=
  decide (127 < c.progGain) || decide (127 < c.talkGain) || decide (127 < c.toneGain) || decide (127 < c.talkDim)
    || c.dims.any (fun d => decide (255 < d)) || decide (64 < c.ramp) || decide (2 < c.dimSource)
    || !(decide (c.programme ≤ 8) || c.programme == 15) || decide (7 < c.callFreq) || decide (7 < c.cueFreq)
    || (decide (4 ≤ i) && decide (2000 < c.lead))

/-- The checks of feed `i`, whose settings beside the home flag are checked when it is in use (R192). -/
def feedChecks (home i : Nat) (c : FeedCfg) : List Check :=
  let used := c.type != 0
  [⟨!typeAllowed i c.type, .badFeed, .feed i⟩,
    ⟨used && (outside 1 7 c.floor || outside 1 7 c.onAirFloor), .badLevel, .feed i⟩,
    ⟨used && decide (c.onAirFloor < c.floor), .floorOrder, .feed i⟩,
    ⟨homeError home i c, .badFeed, .feed i⟩,
    ⟨used && decide (8 < c.count), .badRange, .feed i⟩,
    ⟨used && c.dests.any notAssignable, .badDest, .feed i⟩,
    ⟨used && listedTwice c.dests, .dupDest, .feed i⟩,
    ⟨used && badMix i c, .badRange, .feed i⟩]

/-- The capacity of channel `i` is out of range (R110). -/
def capacityCheck (c : Configuration) (i : Nat) : Check :=
  ⟨outside 16 4096 (c.memos.getD i MemoCfg.absent).capacity, .memoSize, .memo i⟩

/-- The running total of the capacities up to channel `i` exceeds 4096 (R110). -/
def totalCheck (c : Configuration) (i : Nat) : Check :=
  ⟨decide (4096 < ((c.memos.take (i + 1)).map MemoCfg.capacity).sum), .memoSize, .memo i⟩

/-- Every check of START, in the order of R192. -/
def startChecks (number org : Nat) (c : Configuration) : List Check :=
  strapChecks number org
    ++ stationChecks c.station
    ++ (List.range 4).flatMap (sourceChecks c)
    ++ (List.range 12).flatMap (fun k => keyChecks k (c.keys.getD k KeyCfg.absent))
    ++ (List.range 6).flatMap (fun i => feedChecks c.station.homeFeed i (c.feeds.getD i FeedCfg.absent))
    ++ (List.range 4).map (capacityCheck c)
    ++ (List.range 4).map (totalCheck c)

/-- The first check that fails (R192). -/
def validate (number org : Nat) (c : Configuration) : Option Check := (startChecks number org c).find? Check.fails

/-! ### An accepted START (R191) -/

/-- The record of key with settings `c` at START, its pin at level `pin` (R43). A key that is not in use keeps the level UP (log 24). -/
def Key.started (c : KeyCfg) (pin : KeyLevel) : Key :=
  { Key.rest with stable := if c.fn ≠ 0 ∧ c.kind ≤ 1 then pin else .up }

/-- The call-origination record of a key at START (R79). -/
def startCall (c : KeyCfg) : Option CallOrigin := if c.fn = 2 then some ⟨.idle, 0⟩ else none

/-- The mix record of a feed at START (R146). Until the first mix QUERY FEED gives no mix level, talk-dim, codes or lane: DESIGN CHOICE
(log 9). -/
def startMix (c : FeedCfg) : Mix := if usedFeed c then { Mix.rest with prog := some 0 } else Mix.rest

/-- The detector's record of a source at START (R155). -/
def startVox (c : SourceCfg) : Vox := { Vox.rest with voice := c.vox == 0 }

/-- The line interface on entry to LISTENING: the first holdoff is counted from the acceptance of START (R4, R6). -/
def State.listeningLine (s : State) : LineIf :=
  { LineIf.rest s.li.strapNumber s.li.strapOrg with
    lineState := .listening
    micros := s.li.micros
    holdoff := some (s.li.micros + 2 * s.holdoffTime) }

/-- The station after an accepted START with configuration `c` and key pins `pins` (R191). -/
def State.started (s : State) (c : Configuration) (pins : List KeyLevel) : State :=
  let s' : State :=
    { li := s.listeningLine
      plt := Plt.rest s.li.strapOrg
      ku := ⟨(List.range 12).map fun k => Key.started (c.keys.getD k KeyCfg.absent) (pins.getD k .up)⟩
      tru := { Tru.rest with calls := (List.range 12).map fun k => startCall (c.keys.getD k KeyCfg.absent) }
      cia := Cia.rest
      mu := Mu.rest
      mx := { Mx.rest with
        localRun := s.mx.localRun, mixes := (List.range 6).map fun i => startMix (c.feeds.getD i FeedCfg.absent) }
      vd := ⟨(List.range 4).map fun n => startVox (c.sources.getD n SourceCfg.absent), s.vd.micA, s.vd.micB⟩
      tcu := Tcu.rest
      fb := Fb.rest
      cp := { s.cp with config := some c }
      owed := []
      pending := s.pending }
  s'.raise (.lineState s.li.lineState .listening none)

end Sys2Proof.Machine
end

