-- ==== Sys2Proof/Machine/Query.lean ====
section
/-! DEFINITION. The records that QUERY returns (R21, R41, R58, R80, R109, R127, R143, R149, R155, R159, R166, R185, R195), as fields in the
order in which the owning chapters list them; R209 gives the sizes and R211 the codes. Choices of layout are log 9. -/

namespace Sys2Proof.Machine

/-! ### Fields (R209) -/

/-- A field of one byte. -/
def q1 (n : Nat) : QField := ⟨1, some n⟩
/-- A field of two bytes. -/
def q2 (n : Nat) : QField := ⟨2, some n⟩
/-- A field of four bytes. -/
def q4 (n : Nat) : QField := ⟨4, some n⟩
/-- A flag. -/
def qFlag (b : Bool) : QField := q1 b.toNat
/-- A field of one byte that may be absent. -/
def q1? (n : Option Nat) : QField := ⟨1, n⟩
/-- A field of two bytes that may be absent. -/
def q2? (n : Option Nat) : QField := ⟨2, n⟩
/-- A field of four bytes that may be absent. -/
def q4? (n : Option Nat) : QField := ⟨4, n⟩
/-- A list, preceded by its count. -/
def qList {α : Type} (l : List α) (f : α → List QField) : List QField := q1 l.length :: l.flatMap f
/-- A list of one-byte numbers. -/
def qNats (l : List Nat) : List QField := qList l fun n => [q1 n]

/-! ### Codes (R211) -/

/-- The code of a line state. -/
def LineState.code : LineState → Nat
  | .offline => 0
  | .listening => 1
  | .active => 2
  | .leaving => 3
  | .mismatch => 4
  | .silenced => 5

/-- The code of a lane phase. -/
def Phase.code : Phase → Nat
  | .idle => 0
  | .waiting => 1
  | .pending _ => 2
  | .claiming _ => 3
  | .mine _ => 4

/-- The lane of a phase that has one. -/
def Phase.lane : Phase → Option Nat
  | .pending l => some l
  | .claiming l => some l
  | .mine l => some l
  | _ => none

/-- The code of a key's logical state. -/
def KeyState.code : KeyState → Nat
  | .idle => 0
  | .opening => 1
  | .opened => 2
  | .latched => 3

/-- The code of a path record's state. -/
def PathState.code : PathState → Nat
  | .preparing => 0
  | .issued => 1
  | .opened => 2
  | .closing => 3

/-- The code of a call-origination state. -/
def CallState.code : CallState → Nat
  | .idle => 0
  | .queued => 1
  | .sent => 2
  | .acked => 3

/-- The code of an open-talk state. -/
def OpenTalk.code : OpenTalk → Nat
  | .none => 0
  | .opening => 1
  | .opened => 2

/-- The code of a memo channel's state. -/
def MemoState.code : MemoState → Nat
  | .idle => 0
  | .capture => 1
  | .pause => 2
  | .full => 3
  | .play => 4
  | .drain => 5

/-- The code of a field channel's state. -/
def ChanState.code : ChanState → Nat
  | .idle => 0
  | .filling => 1
  | .playing => 2
  | .lost => 3

/-- The code of an entry's place. -/
def Place.code : Place → Nat
  | .top => 0
  | .suspended => 1
  | .admitted => 2
  | .held => 3

/-- The code of a level. -/
def levelCode : KeyLevel → Nat
  | .up => 0
  | .down => 1

/-! ### LINE, PEER, LANE (R21, R41) -/

/-- QUERY LINE: the run count is absent outside LISTENING, and the LEAVING count outside LEAVING (R21). -/
def State.lineRecord (s : State) : List QField :=
  [q1 s.li.lineState.code, qFlag s.li.marker, q1 s.li.strapNumber, q1 s.li.strapOrg, q4? s.li.joinStamp,
    q1? (if s.listening then some s.li.runCount else none), q1 s.li.queue.length,
    q1? (if s.leaving then some s.li.leavingCount else none)]

/-- QUERY PEER. -/
def State.peerRecord (s : State) (n : Nat) : List QField :=
  let p := s.peer n
  [qFlag p.present, q2 p.age, q4? p.stamp, qFlag p.field, q1 p.programme]

/-- QUERY LANE. -/
def State.laneRecord (s : State) (l : Nat) : List QField :=
  match s.lane l with
  | .free => [q1 0]
  | .held h src p age seen => [q1 1, q1 h, q1 src, q1 p, q1 age, qFlag seen]
  | .claiming n count => [q1 2, q1 n, q1 count]
  | .mine n => [q1 3, q1 n]

/-! ### SOURCE (R41, R80, R155, R185) -/

/-- The tags of source `n`'s present records with their states (R80). -/
def State.sourcePaths (s : State) (n : Nat) : List (Nat × Nat) :=
  (List.range 14).filterMap fun g =>
    match s.path g with
    | some p => if p.req.source = n then some (g, p.state.code) else none
    | none => none

/-- A setting, absent where no configuration is stored. -/
def State.setting (s : State) (n : Nat) : Option Nat := if s.cp.config.isSome then some n else none

/-- The voice detector's part (R155). -/
def State.voxRecord (s : State) (n : Nat) : List QField :=
  let c := s.sourceCfg n
  let v := s.vox n
  [q1? (s.setting c.vox), q1? (s.setting c.threshold), q2? (s.setting c.hang), q4 v.envelope, qFlag v.voice, q2 v.hang]

/-- The bridge's part (R185). -/
def State.fieldSourceRecord (s : State) (c : Nat) : List QField :=
  [q1 (s.chan c).state.code, q1 (s.chan c).openTalk.code]

/-- QUERY SOURCE. S4 has no paths, no detector and no channel; behind its record stands the published programme, the setting that its
lane uses (R202, log 9). -/
def State.sourceRecord (s : State) (n : Nat) : List QField :=
  let r := s.source n
  [qFlag r.need, q1 r.phase.code, q1? r.phase.lane, qFlag r.moved]
    ++ qList (s.sourcePaths n) (fun x => [q1 x.1, q1 x.2])
    ++ [qFlag (s.tru.movePending.getD n false)]
    ++ (if n < 4 then s.voxRecord n else [])
    ++ (if n = 2 ∨ n = 3 then s.fieldSourceRecord (n - 2) else [])
    ++ if n = 4 then [q1? (s.setting s.cfg.station.published)] else []

/-! ### KEY (R58) -/

/-- QUERY KEY. The resolved destination is absent for every key but a REPLY key with a path. The tap limit, a setting that the key unit
uses (R202), stands behind the record (log 9). In OFFLINE the absent destination list is sent as an empty one, a count byte of 0, where R58 and
R209 give an absent list no form: DESIGN CHOICE (log 9). -/
def State.keyRecord (s : State) (k : Nat) : List QField :=
  let c := s.keyCfg k
  let r := s.key k
  [q1? (s.setting c.kind), q1? (s.setting c.mode), q1? (s.setting c.fn), q1? (s.setting c.source), q1? (s.setting c.level)]
    ++ qNats c.dests
    ++ [q1? (s.setting c.memo.toNat), q1? (s.setting c.callKind), q1? (s.setting c.replyFeed),
      q1 (levelCode r.stable), q1 r.debounce, q1 r.logical.code, qFlag r.latch, q2 r.pressLength,
      q1? r.resolved, q2? (s.setting s.cfg.station.tapLimit)]

/-! ### PATH (R80) -/

/-- An item of an answer list. -/
def Item.fields (i : Item) : List QField := [q1 i.listener, q1 i.feed, q1 i.dest, q1 i.state.code, q1 i.reason.code]

/-- The four counts of a destination. -/
def countFields (items : List Item) (d : Nat) : List QField :=
  [q1 (countItems items d .admitted), q1 (countItems items d .held), q1 (countItems items d .refused),
    q1 (countItems items d .removed)]

/-- An open held as a successor, behind a flag byte that says whether there is one. R80 and R209 give no form for a group of fields that may be
missing: DESIGN CHOICE (log 9). -/
def successorFields : Option OpenReq → List QField
  | none => [qFlag false]
  | some r => [qFlag true, q1 r.source, q1 r.level, qFlag r.memo] ++ qNats r.dests

/-- A path record. -/
def pathFields : Option Path → List QField
  | none => [q1? none]
  | some p =>
    [q1 p.state.code, q1 p.req.source, q1 p.req.level, qFlag p.req.memo] ++ qNats p.req.dests
      ++ [q2? p.serial, q1? p.lane] ++ qList p.answers Item.fields ++ qNats p.overflow
      ++ qList p.req.dests (countFields p.answers)
      ++ successorFields p.successor ++ [qFlag p.reannouncePending, qFlag p.closePending]

/-- The newest outstanding request entry of a tag, behind the flag that says whether there is one (R80). Of two entries of one tag, of which the
manual does not say which is reported, it is the newest: DESIGN CHOICE (log 9). -/
def State.outstandingFields (s : State) (g : Nat) : List QField :=
  match s.tru.outstanding.reverse.find? fun o => o.tag == g with
  | none => [qFlag false]
  | some o => [qFlag true, q1 o.serial, q1 o.age, qFlag o.closedEarly]

/-- A call-origination record, or absent. -/
def callFields : Option CallOrigin → List QField
  | none => [q1? none]
  | some c => [q1 c.state.code, q1 c.unsent]

/-- QUERY PATH: the call-origination record of a key whose function is CALL, a tag's path record, or the tally-origination list at
index 14 (R80). -/
def State.pathRecord (s : State) (g : Nat) : List QField :=
  if g = 14 then qList s.tru.tallies fun r => [q1 r.dest, q2 r.refresh]
  else if (s.keyCfg g).fn = 2 then callFields (s.callOrigin g)
  else pathFields (s.path g) ++ s.outstandingFields g

/-! ### FEED (R109, R149, R159) -/

/-- The settings of a feed, each absent in OFFLINE. A dim code fills its byte, so it takes two (R209). The absent destination list is sent as an
empty one, a count byte of 0, where R209 gives an absent list no form: DESIGN CHOICE (log 9). -/
def State.feedSettings (s : State) (i : Nat) : List QField :=
  let c := s.feedCfg i
  let set := fun n => q1? (s.setting n)
  [set c.type] ++ qNats c.dests ++ [set c.home.toNat, set c.allCall.toNat, set c.floor, set c.onAirFloor]
    ++ (List.range 6).map (fun k => q2? (s.setting (c.dims.getD k 0)))
    ++ [set c.programme, set c.progGain, set c.talkGain, set c.toneGain, set c.ramp, set c.dimSource, set c.talkDim,
      set c.callFreq, set c.cueFreq, q2? (s.setting (s.lead i))]

/-- A tag of an entry. -/
def EntryTag.fields (t : EntryTag) : List QField := [q1 t.tag, q1 t.level, q1 t.dest, qFlag t.memo]

/-- An entry in a place. -/
def Entry.fields (place : Place) (e : Entry) : List QField :=
  [q1 e.talker, q1 e.source] ++ qList e.tags EntryTag.fields
    ++ [q1 e.level, q1 e.lane, q2 e.arrival, q1 place.code, q2 e.deferAge, qFlag e.draining] ++ qNats e.chain

/-- The entry of a stack, whose place is read off the feed. -/
def Feed.stackFields (f : Feed) (e : Entry) : List QField := e.fields ((f.place e.talker e.source).getD .suspended)

/-- The dynamic record of a feed (R109), absent in OFFLINE. The arrival counter, a field of that record, follows the deferred list as in
the table of 05, The feed record (log 9); it fills its two bytes, so it takes four (R209). Of a feed of type NONE in a started station, to which the
manual gives no arbitration, floor or level, these three are absent: DESIGN CHOICE (log 9). -/
def State.feedState (s : State) (i : Nat) : List QField :=
  let c := s.feedCfg i
  let f := s.feed i
  let used := fun n => q1? (if usedFeed c then some n else none)
  [used (mixingFeed c).toNat, used (effectiveFloor c f), q1? (s.setting f.isOnAir.toNat),
    used (if mixingFeed c then f.exclusive.toNat else f.currentLevel)]
    ++ (if mixingFeed c then qList f.admitted (Entry.fields .admitted) else qList f.stack f.stackFields)
    ++ qList f.deferred (Entry.fields .held)
    ++ [q4? (s.setting f.arrival)]
    ++ qList f.onAir (fun r => [q1 r.origin, q1 r.dest, q2 r.age])
    ++ qList f.calls (fun r => [q1 r.caller, q1 r.key, qFlag r.urgent, q1 r.dest, q2 r.age])
    ++ [q1? f.reply, q1? (s.setting (s.mix i).absent.toNat)]

/-- The mix engine's part of a feed record: the values after the last mix of a feed in use, each absent in OFFLINE (R149). Between START
and the first mix there are none to give, and they are absent too: DESIGN CHOICE (log 9). -/
def State.mixFields (s : State) (i : Nat) : List QField :=
  let x := s.mix i
  let seen := fun (get : MixView → Nat) => q1? (x.last.map get)
  if usedFeed (s.feedCfg i) || s.cp.config.isNone then
    [seen MixView.level, seen MixView.dim, seen MixView.progCode, seen MixView.voiceCode, q2? x.prog]
      ++ qList ((x.last.map MixView.voices).getD []) (fun v => [q2 v])
      ++ [q1? (x.last.bind MixView.lane), q1? (s.setting x.absent.toNat)]
  else []

/-- The code of a tone pattern. -/
def Pattern.code (p : Pattern) : Nat := p.rank

/-- The tone slot's part of a feed record (R159). R211 codes the pattern and not the phase, which is sent as its place in the pattern,
counted from 0: DESIGN CHOICE (log 9). -/
def State.toneFields (s : State) (i : Nat) : List QField :=
  match s.tone i with
  | none => [q1? none, q1? none, q2? none]
  | some t => [q1 t.pattern.code, q1 t.phase, q2 t.mixes]

/-- The station-wide settings that the arbiter and the decode use (R202): the defer limit and the home feed (log 9). -/
def State.arbiterSettings (s : State) : List QField :=
  [q2? (s.setting s.cfg.station.deferLimit), q1? (s.setting s.cfg.station.homeFeed)]

/-- QUERY FEED. -/
def State.feedRecord (s : State) (i : Nat) : List QField :=
  s.feedSettings i ++ s.feedState i ++ s.mixFields i ++ s.toneFields i ++ s.arbiterSettings

/-! ### MEMO (R127) -/

/-- The chain that a channel belongs to. -/
def State.chainOf (s : State) (o : Owner) : List Nat :=
  (((s.feed o.feed).find o.talker o.source).map Entry.chain).getD []

/-- The code of a channel's place in its chain. -/
def chainPlace (chain : List Nat) (c : Nat) : Nat :=
  if chain.head? = some c then (if chain.getLast? = some c then 2 else 0)
  else if chain.getLast? = some c then 1 else 3

/-- QUERY MEMO. -/
def State.memoRecord (s : State) (c : Nat) : List QField :=
  let k := s.memoCfg c
  let ch := s.channel c
  [q2? (s.setting k.capacity), q1? (s.setting k.chain.toNat), q1 ch.state.code]
    ++ match ch.owner with
      | none => []
      | some o =>
        let chain := s.chainOf o
        [q1 o.feed, q1 o.talker, q1 o.source, q2 ch.blocks.length, q2 ch.lost, q1 (chainPlace chain c)]
          ++ qNats chain ++ [q2 (s.chainFill chain)]

/-! ### FIELD, CUE, CLIP (R143, R166, R185) -/

/-- QUERY FIELD of a channel. The open-talk settings of its source, which the bridge uses (R202), stand behind the record (log 9). In OFFLINE their
absent destination list is sent as an empty one, a count byte of 0, where R209 gives an absent list no form: DESIGN CHOICE (log 9). -/
def State.chanRecord (s : State) (c : Nat) : List QField :=
  let ch := s.chan c
  let o := s.openTalkCfg c
  [q1 ch.state.code, qFlag ch.resync, q2 ch.expected, q1 ch.offset]
    ++ qList ch.queue (fun f => [q2 f.number])
    ++ [q1 ch.loss, q1 ch.openTalk.code, q2 ch.late, q2 ch.duplicate, q2 ch.resyncs, q2 ch.concealed]
    ++ qNats o.dests ++ [q1? (s.setting o.level), q1? (s.setting o.memo.toNat)]

/-- QUERY FIELD of the port. -/
def State.portRecord (s : State) : List QField :=
  [q1? (s.setting s.cfg.station.fieldEnable), q1? (s.setting s.cfg.station.targetFill), q2 s.fb.checkFails,
    q2 s.fb.frameNo, q1 s.fb.gatherPos, qFlag (s.outPresent 0), qFlag (s.outPresent 1), qFlag s.fb.hold.isSome,
    q2 s.fb.drops]

/-- QUERY FIELD. -/
def State.fieldRecord (s : State) (i : Nat) : List QField := if i < 2 then s.chanRecord i else s.portRecord

/-- QUERY CUE. -/
def State.cueRecord (s : State) (c : Nat) : List QField :=
  match s.clock c with
  | none => [q1 0]
  | some k =>
    [q1 1, q1 k.origin, q1 k.dest, q1 k.feed, q1 k.seconds, qFlag k.repeats, q4 k.remaining, q2 (s.lead k.feed)]

/-- QUERY CLIP. -/
def State.clipRecord (s : State) (i : Nat) : List QField := [qFlag (s.mix i).clip]

end Sys2Proof.Machine
end

