-- ==== Sys2Proof/Machine/Formats.lean ====
section
/-! DEFINITION. What the outside sees of the state, as bits and bytes: the item being driven onto the line (R203–R205), and the bytes
of responses and events (R209, R211). -/

namespace Sys2Proof.Machine

/-- The bits of the item being driven. -/
def State.drivenBits (s : State) : List Bool :=
  match s.li.driving with
  | none => []
  | some (.mark _) => markBits s.li.strapNumber s.li.strapOrg
  | some .message =>
    match s.inSlot with
    | some o => o.msg.bits s.number
    | none => []
  | some (.slot _ t) => t.bits s.li.strapOrg

/-- `n` in `size` bytes, most significant first. -/
def bytesOf : Nat → Nat → List Nat
  | 0, _ => []
  | size + 1, n => n / 256 ^ size % 256 :: bytesOf size n

/-- The bytes of a field: an absent one is sent as all ones (R209). -/
def QField.bytes (f : QField) : List Nat :=
  match f.value with
  | some n => bytesOf f.size n
  | none => List.replicate f.size 255

/-- The reason byte (R211). -/
def RefuseReason.code : RefuseReason → Nat
  | .state => 1
  | .busy => 2
  | .arg => 3
  | .queue => 4
  | .full => 5
  | .badStrap => 6
  | .badKey => 7
  | .badDest => 8
  | .dupDest => 9
  | .badLevel => 10
  | .floorOrder => 11
  | .memoSize => 12
  | .badFeed => 13
  | .badRange => 14

/-- The START item byte (R211). -/
def StartItem.code : StartItem → Nat
  | .straps => 0
  | .station => 1
  | .source n => 2 + n
  | .key n => 6 + n
  | .feed n => 18 + n
  | .memo n => 24 + n

/-- The KEY-REFUSED reason (R211). -/
def KeyRefusal.code : KeyRefusal → Nat
  | .line => 0
  | .noReply => 1
  | .queue => 2

/-- The TALLY-CHANGE cause (R211). -/
def TallyCause.code : TallyCause → Nat
  | .on => 0
  | .off => 1
  | .expired => 2
  | .absent => 3

/-- The CALL-EXPIRED cause (R211). -/
def CallCause.code : CallCause → Nat
  | .dropped => 0
  | .age => 1
  | .absent => 2

/-- The FIELD-STATE cause (R211). -/
def FieldCause.code : FieldCause → Nat
  | .firstFrame => 0
  | .filled => 1
  | .resync => 2
  | .loss => 3

/-- The fields of a MEMO-STATE condition (R128, R211). -/
def MemoCondition.fields : MemoCondition → List QField
  | .none => [q1 0]
  | .full tail => [q1 1, q1 tail]
  | .discarded n cause => [q1 2, q2 n, q1 cause.code]

/-- One destination of a PATH-RESULT: six bytes (R209). -/
def DestResult.fields (r : DestResult) : List QField :=
  [q1 r.dest, q1 r.admitted, q1 r.held, q1 r.refused, q1 r.removed, q1 r.overflow]

/-- The kind byte of an event (R211). -/
def Event.kind : Event → Nat
  | .lineState .. => 1
  | .peerChange .. => 2
  | .laneWait .. => 3
  | .keyRefused .. => 4
  | .pathResult .. => 5
  | .pathChange .. => 6
  | .callIn .. => 7
  | .callAcked .. => 8
  | .callExpired .. => 9
  | .tallyChange .. => 10
  | .cueExpired .. => 11
  | .cueRefused .. => 12
  | .memoState .. => 13
  | .fieldState .. => 14
  | .overflow .. => 15

/-- The fields of an event, in the order of R196. The last field of LINE-STATE is absent but for MISMATCH and SILENCED, and the
join stamp of PEER-CHANGE is unknown for ABSENT. -/
def Event.fields : Event → List QField
  | .lineState old new detail => [q1 old.code, q1 new.code, q1? detail]
  | .peerChange station present stamp => [q1 station, qFlag present, q4? stamp]
  | .laneWait source => [q1 source]
  | .keyRefused key reason => [q1 key, q1 reason.code]
  | .pathResult tag serial source closedEarly results =>
    [q1 tag, q1 serial, q1 source, qFlag closedEarly] ++ qList results DestResult.fields
  | .pathChange tag listener feed dest state reason =>
    [q1 tag, q1 listener, q1 feed, q1 dest, q1 state.code, q1 reason.code]
  | .callIn feed caller key urgent dest => [q1 feed, q1 caller, q1 key, qFlag urgent, q1 dest]
  | .callAcked key station feed => [q1 key, q1 station, q1 feed]
  | .callExpired feed caller key cause => [q1 feed, q1 caller, q1 key, q1 cause.code]
  | .tallyChange feed onAir origin dest cause => [q1 feed, qFlag onAir, q1 origin, q1 dest, q1 cause.code]
  | .cueExpired clock feed origin dest absent => [q1 clock, q1 feed, q1 origin, q1 dest, qFlag absent]
  | .cueRefused feed origin dest seconds => [q1 feed, q1 origin, q1 dest, q1 seconds]
  | .memoState feed talker source condition => [q1 feed, q1 talker, q1 source] ++ condition.fields
  | .fieldState channel old new expected cause =>
    [q1 channel, q1 old.code, q1 new.code, q2 expected, q1 cause.code]
  | .overflow count => [q2 count]

/-- The bytes of an event record (R209). -/
def Event.bytes (e : Event) : List Nat :=
  let body := e.fields.flatMap QField.bytes
  e.kind :: body.length :: body

/-- The bytes of a response (R209). -/
def Response.bytes : Response → List Nat
  | .accepted => [0]
  | .refused reason item => [1, reason.code] ++ item.toList.map StartItem.code
  | .record fields =>
    let body := fields.flatMap QField.bytes
    0 :: bytes2 body.length ++ body
  | .empty => [0, 0]
  | .event behind e => [0, 1, behind] ++ e.bytes

end Sys2Proof.Machine
end

