-- ==== Sys2Proof/Machine/Port.lean ====
section
/-! DEFINITION. The commands of the control port: refusals in the order of R189 and R190, and what an accepted command does. -/

namespace Sys2Proof.Machine

/-! ### Responses (R188, R189) -/

/-- The response to a command. A new command ends the return of an earlier event (R197). -/
def State.respond (s : State) (r : Response) : State := s.modCp fun c => { c with response := some r, reading := false }

/-- ACCEPTED. -/
def State.accept (s : State) : State := s.respond .accepted

/-- REFUSED with a reason and no item: a START that is refused before its validation names none. DESIGN CHOICE (log 9). -/
def State.refuse (s : State) (r : RefuseReason) : State := s.respond (.refused r none)

/-- A command other than QUERY and EVENT-READ: BUSY in LEAVING, STATE where it is not taken, ARG for its arguments (R189, R190). -/
def State.command (s : State) (taken badArg : Bool) (run : State → State) : State :=
  if s.leaving then s.refuse .busy
  else if !taken then s.refuse .state
  else if badArg then s.refuse .arg
  else run s

/-- A command that offers a message: QUEUE where the queue does not admit it (R75, R76, R78). -/
def State.offerCommand (s : State) (m : Message) (after : State → State) : State :=
  if s.admits m then (after (s.offer m)).accept else s.refuse .queue

/-! ### START and STOP (R191, R193) -/

/-- START with the bytes of its argument (R189, R191, R192). -/
def State.startCommand (s : State) (block : List Nat) (pins : List KeyLevel) : State :=
  if block.length ≠ 392 then s.refuse .arg
  else
    s.command s.offline false fun s =>
      let c := configurationOf block
      match validate s.li.strapNumber s.li.strapOrg c with
      | some k => s.respond (.refused k.reason (some k.item))
      | none => (s.started c pins).accept

/-- STOP (R193). -/
def State.stopCommand (s : State) : State :=
  s.command (!s.offline) false fun s => if s.active then s.accept.enterLeaving else s.accept.enterOffline

/-! ### KEY-SET (R46) -/

/-- KEY-SET with a level byte (R46, R190). -/
def State.keySet (s : State) (k level : Nat) : State :=
  let c := s.keyCfg k
  s.command (!s.offline) (decide (11 < k) || decide (1 < level) || c.kind != 2 || c.fn == 0) fun s =>
    (s.setLevel k (if level = 0 then .up else .down)).accept

/-! ### CALL-ACK, TALLY-SET, CUE-START, CUE-STOP (R75, R76, R78) -/

/-- CALL-ACK (R75, R106). -/
def State.ackCall (s : State) (i caller key : Nat) : State :=
  let known := (s.feed i).calls.any (CallRec.isFor caller key)
  s.command s.active
    (decide (5 < i) || badStation caller || decide (11 < key) || !usedFeed (s.feedCfg i) || !known) fun s =>
    s.offerCommand (.callAck caller i key) fun s =>
      s.modFeed i fun f => { f with calls := f.calls.filter fun r => !CallRec.isFor caller key r }

/-- The destination is listed (R76). -/
def State.listsTally (s : State) (d : Nat) : Bool := s.tru.tallies.any fun r => r.dest == d

/-- A listed destination's refresh count becomes 0; one that is not listed is appended (R76). -/
def listTally (d : Nat) (l : List TallyOrigin) : List TallyOrigin :=
  if l.any fun r => r.dest == d then l.map fun r => if r.dest == d then { r with refresh := 0 } else r else l ++ [⟨d, 0⟩]

/-- TALLY-SET ON (R76); a state byte above 1 is no state. -/
def State.tallyOn (s : State) (d state : Nat) : State :=
  s.command s.active (badDest d || decide (1 < state)) fun s =>
    if !s.listsTally d && decide (8 ≤ s.tru.tallies.length) then s.refuse .full
    else s.offerCommand (.tally d true) fun s => s.modTru fun t => { t with tallies := listTally d t.tallies }

/-- TALLY-SET OFF (R76). -/
def State.tallyOff (s : State) (d : Nat) : State :=
  s.command s.active (badDest d) fun s =>
    s.offerCommand (.tally d false) fun s =>
      s.modTru fun t => { t with tallies := t.tallies.filter fun r => r.dest != d }

/-- CUE-START (R78). -/
def State.cueStart (s : State) (d seconds mode : Nat) : State :=
  s.command s.active (badDest d || seconds == 0 || decide (99 < seconds) || decide (1 < mode)) fun s =>
    s.offerCommand (.cue d seconds mode) id

/-- CUE-STOP: a CUE with 0 seconds (R78). Its mode bit, which no receiver uses, is sent as 0 (log 9). -/
def State.cueStop (s : State) (d : Nat) : State :=
  s.command s.active (badDest d) fun s => s.offerCommand (.cue d 0 0) id

/-! ### MEMO-DISCARD (R123) -/

/-- The discard of a chain by command: no MEMO-STATE; a draining entry is released (R123, R94). -/
def State.discardByCommand (s : State) (i : Nat) (e : Entry) : State :=
  let s1 := (s.freeChain e.chain).modEntry i e.talker e.source fun e => { e with chain := [] }
  (if e.draining then s1.remove i e.talker e.source none false else s1).sync i

/-- MEMO-DISCARD (R123). -/
def State.memoDiscard (s : State) (i talker src : Nat) : State :=
  let entry := (s.feed i).find talker src
  s.command s.active
    (decide (5 < i) || badStation talker || decide (3 < src) || entry.all fun e => e.chain.isEmpty) fun s =>
    match entry with
    | some e => (s.discardByCommand i e).accept
    | none => s.refuse .arg

/-! ### QUERY and EVENT-READ (R195, R197) -/

/-- QUERY with an index that must be in range (R195). -/
def State.answerQuery (s : State) (inRange : Bool) (record : List QField) : State :=
  if inRange then s.respond (.record record) else s.refuse .arg

/-- QUERY CLIP returns and clears the flag (R143). -/
def State.clipQuery (s : State) (i : Nat) : State :=
  if i < 6 then (s.respond (.record (s.clipRecord i))).modMix i fun x => { x with clip := false } else s.refuse .arg

/-- EVENT-READ (R197). -/
def State.readEvent (s : State) : State :=
  match s.cp.events with
  | [] => s.respond .empty
  | e :: rest => s.modCp fun c => { c with response := some (.event rest.length e), reading := true }

/-- The last part of the response of an EVENT-READ has been returned (R197). -/
def State.readDone (s : State) : State :=
  if s.cp.reading then s.modCp fun c => { c with events := c.events.tail, reading := false } else s

/-- The transaction ends before its command is complete or before its response is (R188, R197). -/
def State.abandon (s : State) : State := s.modCp fun c => { c with response := none, reading := false }

end Sys2Proof.Machine
end

