-- ==== Sys2Proof/Machine/ExecPort.lean ====
section
/-! DEFINITION. The meanings of the control port's commands and of hardware reset. -/

namespace Sys2Proof.Machine

/-- The outcome of a command. -/
abbrev Result := Host.Outcome State Fault Refusal

/-- HARDWARE_RESET with these levels at the straps (R186, R187). The queue of waiting commands is the model's own. -/
def execHardwareReset (number org : Nat) (s : State) : Result :=
  .next { State.resetWith number org with pending := s.pending }

/-- START (R191, R192). -/
def execStart (block : List Nat) (pins : List KeyLevel) (s : State) : Result := .next (s.startCommand block pins)

/-- STOP (R193). -/
def execStop (s : State) : Result := .next s.stopCommand

/-- KEY_SET_DOWN (R46): a level byte that is neither 0 nor 1 is refused (R190). -/
def execKeySetDown (key level : Nat) (s : State) : Result := .next (s.keySet key level)

/-- KEY_SET_UP (R46). -/
def execKeySetUp (key : Nat) (s : State) : Result := .next (s.keySet key 0)

/-- CALL_ACK (R75). -/
def execCallAck (feed caller key : Nat) (s : State) : Result := .next (s.ackCall feed caller key)

/-- TALLY_SET_ON (R76): a state byte that is neither 0 nor 1 is refused (R190). -/
def execTallySetOn (dest state : Nat) (s : State) : Result := .next (s.tallyOn dest state)

/-- TALLY_SET_OFF (R76). -/
def execTallySetOff (dest : Nat) (s : State) : Result := .next (s.tallyOff dest)

/-- CUE_START (R78). -/
def execCueStart (dest seconds mode : Nat) (s : State) : Result := .next (s.cueStart dest seconds mode)

/-- CUE_STOP (R78). -/
def execCueStop (dest : Nat) (s : State) : Result := .next (s.cueStop dest)

/-- MEMO_DISCARD (R123). -/
def execMemoDiscard (feed talker source : Nat) (s : State) : Result := .next (s.memoDiscard feed talker source)

/-- QUERY_LINE (R21): any index. -/
def execQueryLine (_index : Nat) (s : State) : Result := .next (s.answerQuery true s.lineRecord)

/-- QUERY_PEER (R41). -/
def execQueryPeer (index : Nat) (s : State) : Result :=
  .next (s.answerQuery (decide (1 ≤ index ∧ index ≤ 62)) (s.peerRecord index))

/-- QUERY_LANE (R41, R186). -/
def execQueryLane (index : Nat) (s : State) : Result :=
  .next (s.answerQuery (decide (index < s.laneCount)) (s.laneRecord index))

/-- QUERY_SOURCE (R41, R80, R155, R185). -/
def execQuerySource (index : Nat) (s : State) : Result :=
  .next (s.answerQuery (decide (index ≤ 4)) (s.sourceRecord index))

/-- QUERY_KEY (R58). -/
def execQueryKey (index : Nat) (s : State) : Result :=
  .next (s.answerQuery (decide (index ≤ 11)) (s.keyRecord index))

/-- QUERY_PATH (R80). -/
def execQueryPath (index : Nat) (s : State) : Result :=
  .next (s.answerQuery (decide (index ≤ 14)) (s.pathRecord index))

/-- QUERY_FEED (R109, R149, R159). -/
def execQueryFeed (index : Nat) (s : State) : Result :=
  .next (s.answerQuery (decide (index ≤ 5)) (s.feedRecord index))

/-- QUERY_MEMO (R127). -/
def execQueryMemo (index : Nat) (s : State) : Result :=
  .next (s.answerQuery (decide (index ≤ 3)) (s.memoRecord index))

/-- QUERY_FIELD (R185). -/
def execQueryField (index : Nat) (s : State) : Result :=
  .next (s.answerQuery (decide (index ≤ 2)) (s.fieldRecord index))

/-- QUERY_CUE (R166). -/
def execQueryCue (index : Nat) (s : State) : Result :=
  .next (s.answerQuery (decide (index ≤ 3)) (s.cueRecord index))

/-- QUERY_CLIP (R143). -/
def execQueryClip (index : Nat) (s : State) : Result := .next (s.clipQuery index)

/-- EVENT_READ (R197). -/
def execEventRead (s : State) : Result := .next s.readEvent

/-- EVENT_READ_COMPLETE (R197). -/
def execEventReadComplete (s : State) : Result := .next s.readDone

/-- UNKNOWN_COMMAND: refused with ARG by the first test of R189. -/
def execUnknownCommand (_code : Nat) (_args : List Nat) (s : State) : Result := .next (s.refuse .arg)

/-- TRANSACTION_ABORT (R188, R197). -/
def execTransactionAbort (_taken : List Nat) (s : State) : Result := .next s.abandon

end Sys2Proof.Machine
end

