-- ==== Sys2Proof/Machine/ExecLine.lean ====
section
/-! DEFINITION. The meanings of the events of the talk line: cycles and marks, the message window, heard messages and lane slots. -/

namespace Sys2Proof.Machine

/-! ### Cycles and marks -/

/-- CYCLE_OPENING (R1). -/
def execCycleOpening (pins : List KeyLevel) (apart : List DueKind) (s : State) : Result := .next (s.openCycle pins apart)

/-- MARK_RECEIVED (R7, R12, R13). -/
def execMarkReceived (mark : HeardMark) (apart : List DueKind) (s : State) : Result := .next (s.markHeard mark apart)

/-- RUN_COUNT_COMPLETE (R7, R8). -/
def execRunCountComplete (s : State) : Result := .next (s.takeOwed .runCount)

/-- HOLDOFF_EXPIRY (R4). -/
def execHoldoffExpiry (s : State) : Result := .next s.holdoffExpired

/-- MARK_INTERVAL_EXPIRY (R5). -/
def execMarkIntervalExpiry (s : State) : Result := .next s.intervalExpired

/-- MARK_SENT (R5, R7). -/
def execMarkSent (s : State) : Result := .next s.markDone

/-- MARK_LOST (R5). -/
def execMarkLost (s : State) : Result := .next s.markMissed

/-- READBACK_MISMATCH (R2, R13). -/
def execReadbackMismatch (s : State) : Result := .next s.readbackDiffers

/-! ### The message window -/

/-- MESSAGE_SLOT (R15). -/
def execMessageSlot (slot : Nat) (s : State) : Result := .next (s.openSlot slot)

/-- MESSAGE_SENT (R15, R19). -/
def execMessageSent (s : State) : Result := .next s.messageDone

/-- MESSAGE_LOST (R15, R18). -/
def execMessageLost (s : State) : Result := .next s.messageMissed

/-- PRESENCE_RECEIVED (R22, R25, R27). -/
def execPresenceReceived (env : Envelope) (fresh : Bool) (stamp : Nat) (field : Bool) (programme : Nat) (s : State) :
    Result :=
  .next (s.hear env (.presence fresh stamp field programme) (State.notePresence env.sender stamp programme field) id
    fun s => if fresh && env.sender != s.number then s.reannounceAll else s)

/-- LANE_CLAIM_RECEIVED (R29). -/
def execLaneClaimReceived (env : Envelope) (lane source : Nat) (s : State) : Result :=
  .next (s.hear env (.laneClaim lane source) (fun s => s.refreshPeer env.sender)
    (fun s => s.claimHeard env.sender lane source) id)

/-- TALK_OPEN_RECEIVED (R84). -/
def execTalkOpenReceived (env : Envelope) (m : TalkOpen) (s : State) : Result :=
  .next (s.hear env (.talkOpen m) (fun s => s.refreshPeer env.sender) id fun s => s.talkOpened env.sender m)

/-- TALK_MOVE_RECEIVED (R98). -/
def execTalkMoveReceived (env : Envelope) (source lane : Nat) (s : State) : Result :=
  .next (s.hear env (.talkMove source lane) (fun s => s.refreshPeer env.sender) id
    fun s => s.talkMoved env.sender source lane)

/-- TALK_CLOSE_RECEIVED (R92). -/
def execTalkCloseReceived (env : Envelope) (source tag : Nat) (s : State) : Result :=
  .next (s.hear env (.talkClose source tag) (fun s => s.refreshPeer env.sender) id
    fun s => s.talkClosed env.sender source tag)

/-- ANSWER_RECEIVED (R67). -/
def execAnswerReceived (env : Envelope) (talker tag serial : Nat) (items : List WireItem) (s : State) : Result :=
  .next (s.hear env (.answer talker tag serial items) (fun s => s.refreshPeer env.sender) id
    fun s => if talker = s.number then s.answerHeard env.sender tag serial items else s)

/-- FEED_NOTICE_RECEIVED (R69). -/
def execFeedNoticeReceived (env : Envelope) (feed talker source state reason : Nat) (s : State) : Result :=
  .next (s.hear env (.feedNotice feed talker source state reason) (fun s => s.refreshPeer env.sender) id
    fun s =>
      if talker = s.number then
        s.noticeHeard env.sender feed source (ItemState.ofCode state) (Reason.ofCode reason)
      else s)

/-- CALL_RECEIVED (R105). -/
def execCallReceived (env : Envelope) (key kind : Nat) (dests : List Nat) (s : State) : Result :=
  .next (s.hear env (.call key kind dests) (fun s => s.refreshPeer env.sender) id
    fun s => s.called env.sender key kind dests)

/-- CALL_ACK_RECEIVED (R74). -/
def execCallAckReceived (env : Envelope) (caller feed key : Nat) (s : State) : Result :=
  .next (s.hear env (.callAck caller feed key) (fun s => s.refreshPeer env.sender) id
    fun s => if caller = s.number then s.ackHeard key env.sender feed else s)

/-- TALLY_RECEIVED (R102). -/
def execTallyReceived (env : Envelope) (dest : Nat) (on : Bool) (s : State) : Result :=
  .next (s.hear env (.tally dest on) (fun s => s.refreshPeer env.sender) id fun s => s.tallied env.sender dest on)

/-- CUE_RECEIVED (R161). -/
def execCueReceived (env : Envelope) (dest seconds mode : Nat) (s : State) : Result :=
  .next (s.hear env (.cue dest seconds mode) (fun s => s.refreshPeer env.sender) id
    fun s => s.cueHeard env.sender dest seconds mode)

/-- CUE_STOP_RECEIVED (R162). -/
def execCueStopReceived (env : Envelope) (dest mode : Nat) (s : State) : Result :=
  .next (s.hear env (.cue dest 0 mode) (fun s => s.refreshPeer env.sender) id fun s => s.cueHalted env.sender dest)

/-! ### Lane slots -/

/-- LANE_SLOT_TRANSMIT (R39). -/
def execLaneSlotTransmit (lane : Nat) (s : State) : Result := .next (s.driveSlot lane)

/-- LANE_SLOT_RECEIVED (R9, R28): a lane number of L or above has no slot. -/
def execLaneSlotReceived (lane : Nat) (good own : Bool) (slot : Slot) (s : State) : Result :=
  .next (if lane < s.laneCount then (s.slotDone lane own).slotHeard lane (goodSlot good slot) own slot else s)

/-- SLOT_HEADER_LOST (R37). -/
def execSlotHeaderLost (winner : Nat) (s : State) : Result := .next (s.slotLost winner)

end Sys2Proof.Machine
end

