-- ==== Sys2Proof/Machine/ExecDue.lean ====
section
/-! DEFINITION. The meanings of the due steps of an opening, each taken where the last opening left it (log 4). -/

namespace Sys2Proof.Machine

/-- DEBOUNCE_COMPLETE (R44). -/
def execDebounceComplete (key : Nat) (s : State) : Result := .next (s.takeOwed (.debounce key))

/-- PRESENCE_DUE (R26). -/
def execPresenceDue (s : State) : Result := .next (s.takeOwed .presence)

/-- PEER_AGING_ABSENT (R23, R24). -/
def execPeerAgingAbsent (station : Nat) (s : State) : Result := .next (s.takeOwed (.peer station))

/-- LANE_AGE_EXPIRY (R30). -/
def execLaneAgeExpiry (lane : Nat) (s : State) : Result := .next (s.takeOwed (.lane lane))

/-- CLAIM_WINDOW_END (R34). -/
def execClaimWindowEnd (lane : Nat) (s : State) : Result := .next (s.takeOwed (.claim lane))

/-- OUTSTANDING_ENTRY_RETIRE (R65). -/
def execOutstandingEntryRetire (s : State) : Result := .next (s.takeOwed .retire)

/-- TALLY_REFRESH (R77). -/
def execTallyRefresh (dest : Nat) (s : State) : Result := .next (s.takeOwed (.refresh dest))

/-- DEFER_EXPIRY (R99). -/
def execDeferExpiry (feed talker source : Nat) (s : State) : Result := .next (s.takeOwed (.defer feed talker source))

/-- ON_AIR_EXPIRY (R102). -/
def execOnAirExpiry (feed origin dest : Nat) (s : State) : Result := .next (s.takeOwed (.onAir feed origin dest))

/-- CALL_REPEAT (R105). -/
def execCallRepeat (feed caller key : Nat) (s : State) : Result := .next (s.takeOwed (.callRepeat feed caller key))

/-- CALL_EXPIRY (R105). -/
def execCallExpiry (feed caller key : Nat) (s : State) : Result := .next (s.takeOwed (.callExpiry feed caller key))

/-- CUE_TONE_REQUEST (R163). -/
def execCueToneRequest (clock : Nat) (s : State) : Result := .next (s.takeTone clock)

/-- CUE_CLOCK_ZERO (R164). -/
def execCueClockZero (clock : Nat) (s : State) : Result := .next (s.takeZero clock)

/-- TONE_PHASE_END (R156). -/
def execTonePhaseEnd (feed : Nat) (s : State) : Result := .next (s.takeOwed (.tonePhase feed))

/-- HANG_EXPIRY (R153). -/
def execHangExpiry (source : Nat) (s : State) : Result := .next (s.takeOwed (.hang source))

/-- LEAVING_TIMEOUT (R11). -/
def execLeavingTimeout (s : State) : Result := .next (s.takeOwed .leaving)

/-- FIELD_LOSS (R176). -/
def execFieldLoss (channel : Nat) (s : State) : Result := .next (s.takeOwed (.fieldLoss channel))

end Sys2Proof.Machine
end

