-- ==== Sys2Proof/Machine/ExecMedia.lean ====
section
/-! DEFINITION. The meanings of the events of the field port and of the sample clocks. -/

namespace Sys2Proof.Machine

/-- FIELD_FRAME_ARRIVAL (R167, R175). -/
def execFieldFrameArrival (frame : FieldFrame) (s : State) : Result := .next (s.frameComes frame)

/-- FIELD_FRAME_SENT (R181). -/
def execFieldFrameSent (s : State) : Result := .next (s.modFb Fb.sent)

/-- OUTPUT_SAMPLE_DUE (R144). -/
def execOutputSampleDue (s : State) : Result := .next s.takeOutputs

/-- AUDIO_INPUT_SAMPLED (R135, R150). -/
def execAudioInputSampled (programme micA micB : Sample) (s : State) : Result :=
  .next { s with
    mx := { s.mx with localRun := pushSample s.mx.localRun programme }
    vd := { s.vd with micA := pushSample s.vd.micA micA, micB := pushSample s.vd.micB micB } }

end Sys2Proof.Machine
end

