-- ==== Sys2Proof/Machine/Dispatch.lean ====
section
/-! DEFINITION. The dispatch: one arm per command, each one call of its meaning. -/

namespace Sys2Proof.Machine

def exec (i : Instr) (s : State) : Host.Outcome State Fault Refusal :=
  match i with
  | .hardwareReset number org => Sys2Proof.Machine.execHardwareReset number org s
  | .start block pins => Sys2Proof.Machine.execStart block pins s
  | .stop => Sys2Proof.Machine.execStop s
  | .keySetDown key level => Sys2Proof.Machine.execKeySetDown key level s
  | .keySetUp key => Sys2Proof.Machine.execKeySetUp key s
  | .callAck feed caller key => Sys2Proof.Machine.execCallAck feed caller key s
  | .tallySetOn dest state => Sys2Proof.Machine.execTallySetOn dest state s
  | .tallySetOff dest => Sys2Proof.Machine.execTallySetOff dest s
  | .cueStart dest seconds mode => Sys2Proof.Machine.execCueStart dest seconds mode s
  | .cueStop dest => Sys2Proof.Machine.execCueStop dest s
  | .memoDiscard feed talker source => Sys2Proof.Machine.execMemoDiscard feed talker source s
  | .queryLine index => Sys2Proof.Machine.execQueryLine index s
  | .queryPeer index => Sys2Proof.Machine.execQueryPeer index s
  | .queryLane index => Sys2Proof.Machine.execQueryLane index s
  | .querySource index => Sys2Proof.Machine.execQuerySource index s
  | .queryKey index => Sys2Proof.Machine.execQueryKey index s
  | .queryPath index => Sys2Proof.Machine.execQueryPath index s
  | .queryFeed index => Sys2Proof.Machine.execQueryFeed index s
  | .queryMemo index => Sys2Proof.Machine.execQueryMemo index s
  | .queryField index => Sys2Proof.Machine.execQueryField index s
  | .queryCue index => Sys2Proof.Machine.execQueryCue index s
  | .queryClip index => Sys2Proof.Machine.execQueryClip index s
  | .eventRead => Sys2Proof.Machine.execEventRead s
  | .eventReadComplete => Sys2Proof.Machine.execEventReadComplete s
  | .unknownCommand code args => Sys2Proof.Machine.execUnknownCommand code args s
  | .transactionAbort taken => Sys2Proof.Machine.execTransactionAbort taken s
  | .cycleOpening pins apart => Sys2Proof.Machine.execCycleOpening pins apart s
  | .markReceived mark apart => Sys2Proof.Machine.execMarkReceived mark apart s
  | .runCountComplete => Sys2Proof.Machine.execRunCountComplete s
  | .holdoffExpiry => Sys2Proof.Machine.execHoldoffExpiry s
  | .markIntervalExpiry => Sys2Proof.Machine.execMarkIntervalExpiry s
  | .markSent => Sys2Proof.Machine.execMarkSent s
  | .markLost => Sys2Proof.Machine.execMarkLost s
  | .readbackMismatch => Sys2Proof.Machine.execReadbackMismatch s
  | .messageSlot slot => Sys2Proof.Machine.execMessageSlot slot s
  | .messageSent => Sys2Proof.Machine.execMessageSent s
  | .messageLost => Sys2Proof.Machine.execMessageLost s
  | .presenceReceived env fresh stamp field programme => Sys2Proof.Machine.execPresenceReceived env fresh stamp field programme s
  | .laneClaimReceived env lane source => Sys2Proof.Machine.execLaneClaimReceived env lane source s
  | .talkOpenReceived env m => Sys2Proof.Machine.execTalkOpenReceived env m s
  | .talkMoveReceived env source lane => Sys2Proof.Machine.execTalkMoveReceived env source lane s
  | .talkCloseReceived env source tag => Sys2Proof.Machine.execTalkCloseReceived env source tag s
  | .answerReceived env talker tag serial items => Sys2Proof.Machine.execAnswerReceived env talker tag serial items s
  | .feedNoticeReceived env feed talker source state reason => Sys2Proof.Machine.execFeedNoticeReceived env feed talker source state reason s
  | .callReceived env key kind dests => Sys2Proof.Machine.execCallReceived env key kind dests s
  | .callAckReceived env caller feed key => Sys2Proof.Machine.execCallAckReceived env caller feed key s
  | .tallyReceived env dest on => Sys2Proof.Machine.execTallyReceived env dest on s
  | .cueReceived env dest seconds mode => Sys2Proof.Machine.execCueReceived env dest seconds mode s
  | .cueStopReceived env dest mode => Sys2Proof.Machine.execCueStopReceived env dest mode s
  | .laneSlotTransmit lane => Sys2Proof.Machine.execLaneSlotTransmit lane s
  | .laneSlotReceived lane good own slot => Sys2Proof.Machine.execLaneSlotReceived lane good own slot s
  | .slotHeaderLost winner => Sys2Proof.Machine.execSlotHeaderLost winner s
  | .debounceComplete key => Sys2Proof.Machine.execDebounceComplete key s
  | .presenceDue => Sys2Proof.Machine.execPresenceDue s
  | .peerAgingAbsent station => Sys2Proof.Machine.execPeerAgingAbsent station s
  | .laneAgeExpiry lane => Sys2Proof.Machine.execLaneAgeExpiry lane s
  | .claimWindowEnd lane => Sys2Proof.Machine.execClaimWindowEnd lane s
  | .outstandingEntryRetire => Sys2Proof.Machine.execOutstandingEntryRetire s
  | .tallyRefresh dest => Sys2Proof.Machine.execTallyRefresh dest s
  | .deferExpiry feed talker source => Sys2Proof.Machine.execDeferExpiry feed talker source s
  | .onAirExpiry feed origin dest => Sys2Proof.Machine.execOnAirExpiry feed origin dest s
  | .callRepeat feed caller key => Sys2Proof.Machine.execCallRepeat feed caller key s
  | .callExpiry feed caller key => Sys2Proof.Machine.execCallExpiry feed caller key s
  | .cueToneRequest clock => Sys2Proof.Machine.execCueToneRequest clock s
  | .cueClockZero clock => Sys2Proof.Machine.execCueClockZero clock s
  | .tonePhaseEnd feed => Sys2Proof.Machine.execTonePhaseEnd feed s
  | .hangExpiry source => Sys2Proof.Machine.execHangExpiry source s
  | .leavingTimeout => Sys2Proof.Machine.execLeavingTimeout s
  | .fieldFrameArrival frame => Sys2Proof.Machine.execFieldFrameArrival frame s
  | .fieldLoss channel => Sys2Proof.Machine.execFieldLoss channel s
  | .fieldFrameSent => Sys2Proof.Machine.execFieldFrameSent s
  | .outputSampleDue => Sys2Proof.Machine.execOutputSampleDue s
  | .audioInputSampled programme micA micB => Sys2Proof.Machine.execAudioInputSampled programme micA micB s

end Sys2Proof.Machine
end

