-- ==== Sys2Proof/Machine/Step.lean ====
section
/-! DEFINITION. The step: the command at the front of the queue is taken, and an empty queue idles for one microsecond (log 1). -/

namespace Sys2Proof.Machine

/-- One microsecond passes with nothing commanded: DESIGN CHOICE (log 1). -/
def State.idleStep (s : State) : State := s.modLi fun li => { li with micros := li.micros + 1 }

/-- One step: the front command on the state with the rest of the queue; with no command the block idles. -/
def step (s : State) : Host.Outcome State Fault Refusal :=
  match s.pending with
  | [] => .next s.idleStep
  | c :: rest => exec c { s with pending := rest }

/-- `s` with the command that a word spells put at the front of its queue. No row of the opcode table has bits, so no word spells one
and `s` stays as it is (log 21). -/
def State.withFetchWord (s : State) (nbits w : Nat) : State :=
  match Sys2Proof.decodeTableWord nbits w with
  | some c => { s with pending := c :: s.pending }
  | none => s

end Sys2Proof.Machine
end

