-- ==== Sys2Proof/Safety.lean ====
section
/-! DEFINITION. What a safe run is, which blocks a command may change, and the laws that every step keeps: the capacities of the
manual and its laws of the device. -/

namespace Sys2Proof.Machine

/-! ### Safe outcomes -/

/-- A command or a step is safe when it answers a next state. -/
def Safe (o : Host.Outcome State Fault Refusal) : Prop := ∃ t, o = .next t

/-! ### Frames -/

/-- The parts of the state beside the queue of commands: the eleven blocks, and the due steps left apart. -/
inductive Piece
  | li | plt | ku | tru | cia | mu | mx | vd | tcu | fb | cp | owed
deriving DecidableEq, Repr

/-- A part of `t` is as it is in `s`. -/
def State.keeps (s t : State) : Piece → Prop
  | .li => t.li = s.li
  | .plt => t.plt = s.plt
  | .ku => t.ku = s.ku
  | .tru => t.tru = s.tru
  | .cia => t.cia = s.cia
  | .mu => t.mu = s.mu
  | .mx => t.mx = s.mx
  | .vd => t.vd = s.vd
  | .tcu => t.tcu = s.tcu
  | .fb => t.fb = s.fb
  | .cp => t.cp = s.cp
  | .owed => t.owed = s.owed

/-- `t` differs from `s` in these parts alone; the queue of commands is the same. -/
def State.changesOnly (s t : State) (parts : List Piece) : Prop :=
  t.pending = s.pending ∧ ∀ p, p ∉ parts → s.keeps t p

/-- The line interface of `t` is that of `s` but for its outbound message queue. -/
def State.queueOnly (s t : State) : Prop := ∃ q, t.li = { s.li with queue := q }

/-- The control port of `t` is that of `s` but for its event queue. -/
def State.eventsOnly (s t : State) : Prop := ∃ es, t.cp = { s.cp with events := es }

/-- The control port of `s` after these events, in order (R199). -/
def State.told (s : State) (es : List Event) : Cp := { s.cp with events := es.foldl appendEvent s.cp.events }

/-- The event stands in the queue of `t`, unless the queue has filled (R199). -/
def State.reports (t : State) (e : Event) : Prop := t.cp.events.length < 31 → e ∈ t.cp.events

/-- `s` with a response composed. -/
def State.answered (s : State) (r : Response) : State := { s with cp := { s.cp with response := some r, reading := false } }

/-- `s` with a command refused: nothing but the response is new (R189). -/
def State.refusedWith (s : State) (r : RefuseReason) : State := s.answered (.refused r none)

/-! ### Entries to line states -/

/-- `t` is `s` after an entry to MISMATCH or SILENCED with this detail in LINE-STATE (R14): driving, queue, MARKER and timers are gone,
every block's talk state is emptied, and the straps, the configuration, the settings and the counts that the chapters keep are kept. -/
def State.diesTo (s t : State) (st : LineState) (detail : Nat) : Prop :=
  t.li = { s.li with lineState := st, marker := false, holdoff := none, interval := none, queue := [],
                     leavingCount := 0, driving := none }
    ∧ t.plt = Plt.rest s.li.strapOrg
    ∧ (∀ k, k < s.ku.keys.length →
        t.key k = ⟨(s.key k).stable, (s.key k).debounce, .idle, false, 0, none⟩)
    ∧ t.tru = { Tru.rest with serial := s.tru.serial }
    ∧ (∀ i, i < s.cia.feeds.length → t.feed i = ⟨[], [], [], 0, [], [], (s.feed i).reply⟩)
    ∧ t.mu = Mu.rest ∧ t.mx = s.mx ∧ t.vd = s.vd ∧ t.tcu = Tcu.rest
    ∧ t.fb = { s.fb with chans := t.fb.chans }
    ∧ (∀ c, c < s.fb.chans.length →
        t.chan c = { s.chan c with state := .idle, resync := false, queue := [], last := zeroBlock, loss := 0,
                                   openTalk := .none })
    ∧ t.cp = { s.cp with events := appendEvent s.cp.events (.lineState s.li.lineState st (some detail)) }
    ∧ t.owed = s.owed ∧ t.pending = s.pending

/-- `t` is ACTIVE by a mark that began at `start`, entered from the LISTENING state `s` (R8, R22, R26, R31, R180): the join stamp is
taken, the *new* PRESENCE is offered, the own entry is PRESENT, framing starts when the field enable is on, LINE-STATE is raised, and
a publisher's S4 has its need. -/
def State.entersActive (s t : State) (start : Nat) : Prop :=
  let c := s.cfg.station
  let hello := Message.presence true (start % 65536) (c.fieldEnable == 1) c.published
  t.li.lineState = .active ∧ t.li.joinStamp = some (start % 65536) ∧ t.li.leavingCount = 0 ∧ t.li.activeCycles = 0
    ∧ t.li.strapNumber = s.li.strapNumber ∧ t.li.strapOrg = s.li.strapOrg ∧ t.li.holdoff = s.li.holdoff
    ∧ (∃ o ∈ t.li.queue, o.msg = hello)
    ∧ t.peer s.number = ⟨true, 0, some (start % 65536), c.fieldEnable == 1, c.published⟩
    ∧ t.fb = { s.fb with framing := c.fieldEnable == 1, frameNo := 0, gatherPos := 0, gatherA := [], gatherB := [],
                         hold := none }
    ∧ (c.published = 0 → t.plt.sources = s.plt.sources ∧ t.li.queue = [⟨hello, false, none⟩]
        ∧ t.cp = { s.cp with events := appendEvent s.cp.events (.lineState .listening .active none) })
    ∧ (c.published ≠ 0 → (t.source 4).need = true ∧ s.eventsOnly t)
    ∧ s.changesOnly t [.li, .plt, .fb, .cp, .owed]

/-- The station after an entry to OFFLINE from state `old`, with response `r`: every collection is emptied, the configuration is discarded,
and LINE-STATE is the one event (R11, R193). The straps and the microsecond count stay, and so do the runs of input samples:
DESIGN CHOICE (log 3). -/
def State.wiped (s : State) (old : LineState) (r : Option Response) : State :=
  { li := { LineIf.rest s.li.strapNumber s.li.strapOrg with micros := s.li.micros }
    plt := Plt.rest s.li.strapOrg, ku := Ku.rest, tru := Tru.rest, cia := Cia.rest, mu := Mu.rest
    mx := { Mx.rest with localRun := s.mx.localRun }
    vd := { Vd.rest with micA := s.vd.micA, micB := s.vd.micB }
    tcu := Tcu.rest, fb := Fb.rest
    cp := ⟨none, [.lineState old .offline none], r, false⟩
    owed := [], pending := s.pending }

/-! ### Lanes of a source (R32, R36, R38) -/

/-- Source `n` can pick lane `l`: it is FREE, and no other own source has picked it (R32). -/
def State.pickable (s : State) (n l : Nat) : Prop :=
  l < s.plt.lanes.length ∧ s.lane l = .free ∧ ∀ k, k < 5 → k ≠ n → (s.source k).phase ≠ .pending l

/-- Source `n`, seeing the lanes of `s`, has picked in `t`: PENDING on the lowest lane it can pick, with its LANE-CLAIM where the queue has a
place, or WAITING with LANE-WAIT where it can pick none (R32, R36). The events `before` come ahead of it. -/
def State.picks (s t : State) (n : Nat) (before : List Event) : Prop :=
  (∀ l, s.pickable n l → (∀ k, k < l → ¬s.pickable n k) →
      (t.source n).phase = .pending l ∧ t.cp.events = (s.told before).events
        ∧ (s.li.queue.length < 16 → ∃ o ∈ t.li.queue, o.msg = .laneClaim l n))
    ∧ ((∀ l, ¬s.pickable n l) → (t.source n).phase = .waiting ∧ t.cp.events = (s.told (before ++ [.laneWait n])).events)

/-- The queued LANE-CLAIM of source `n` for lane `l`. A locked claim whose need has ended is abandoned (R38), and is not the claim of a later pick. -/
def OutMsg.isClaim (n l : Nat) (o : OutMsg) : Prop := o.msg = .laneClaim l n ∧ o.drop ≠ some .needEnd

/-- The lane `l` that source `n` of `s` has picked, and no other source has, is not FREE any more in `t` (R32, R35). A queued claim that is not locked
is withdrawn, and the source has picked again, seeing the lanes of `t`; a locked one waits for its outcome, and the source stays PENDING. With
no claim in the queue nothing is changed of the source and the queue. The events `before` come ahead. -/
def State.losesPick (s t : State) (n l : Nat) (before : List Event) : Prop :=
  let rest := s.li.queue.filter fun o => !(o.msg == .laneClaim l n && !o.locked)
  let seen : State := { s with li := { s.li with queue := rest }, plt := { s.plt with lanes := t.plt.lanes } }
  ((∃ o ∈ s.li.queue, o.isClaim n l) → (∀ o ∈ s.li.queue, o.isClaim n l → o.locked = false) →
      (∀ o ∈ t.li.queue, ¬o.isClaim n l) ∧ seen.picks t n before)
    ∧ ((∃ o ∈ s.li.queue, o.isClaim n l ∧ o.locked = true) →
        t.source n = s.source n ∧ t.cp = s.told before
          ∧ ∀ o ∈ s.li.queue, o.isClaim n l → o.locked = true → o.drop = none → { o with drop := some .repick } ∈ t.li.queue)
    ∧ ((∀ o ∈ s.li.queue, ¬o.isClaim n l) → t.source n = s.source n ∧ t.cp = s.told before ∧ t.li.queue = s.li.queue)

/-- The lane that a source in this phase gives up when its need ends (R38). -/
def givenUp : Phase → Option Nat
  | .pending l => some l
  | .claiming l => some l
  | .mine l => some l
  | _ => none

/-- The need of source `n` of `s` has ended in `t` (R38): the source is in phase NONE, a CLAIMING or MINE lane is FREE, a queued LANE-CLAIM that
is not locked is withdrawn, and the first WAITING source that could pick no lane picks the one given up (R36). -/
def State.needEnds (s t : State) (n : Nat) : Prop :=
  let phase := (s.source n).phase
  t.source n = ⟨false, .idle, false⟩
    ∧ (∀ l, l < s.plt.lanes.length → t.lane l = if phase = .claiming l ∨ phase = .mine l then .free else s.lane l)
    ∧ (∀ l, phase = .pending l → ∀ o ∈ t.li.queue, isClaimOf n o.msg = true → o.locked = true)
    ∧ ∀ k l, k < 5 → k ≠ n → s.active = true → givenUp phase = some l → (s.source k).phase = .waiting →
        (∀ j, j < k → j ≠ n → (s.source j).phase ≠ .waiting) → (∀ m, ¬s.pickable k m) → l < s.plt.lanes.length →
        (∀ j, j < 5 → j ≠ n → (s.source j).phase ≠ .pending l) → (phase = .pending l → s.lane l = .free) →
        (t.source k).phase = .pending l

/-! ### Sizes: every table has the number of records that its chapter gives it -/

/-- The tables of the state have their sizes. -/
def Sizes (s : State) : Prop :=
  s.plt.peers.length = 62 ∧ s.plt.lanes.length = lanesOf s.li.strapOrg ∧ s.plt.sources.length = 5
    ∧ s.ku.keys.length = 12 ∧ s.tru.paths.length = 14 ∧ s.tru.movePending.length = 4 ∧ s.tru.calls.length = 12
    ∧ s.cia.feeds.length = 6 ∧ s.mu.channels.length = 4 ∧ s.mx.store.length = 24 ∧ s.mx.mixes.length = 6
    ∧ s.mx.outputs.length = 4 ∧ s.vd.sources.length = 4 ∧ s.tcu.slots.length = 6 ∧ s.tcu.clocks.length = 4
    ∧ s.fb.chans.length = 2

/-! ### Queues (R16, R18, R61, R199) -/

/-- The event is an OVERFLOW. -/
def Event.isOverflow : Event → Bool
  | .overflow _ => true
  | _ => false

/-- The event queue holds at most 32 entries, and a full one ends in an OVERFLOW (R199). -/
def EventLaw (s : State) : Prop :=
  s.cp.events.length ≤ 32 ∧ (s.cp.events.length = 32 → s.cp.events.getLast?.any Event.isOverflow = true)

/-- The station is driving the locked message. -/
def State.drivesMessage (s : State) : Bool := s.li.driving == some .message

/-- The outbound message queue holds at most 16 messages, at most 12 of them outside the reply class, by falling urgency; one message
at most is locked in a slot, just while it is driven (R15, R16, R18). -/
def QueueLaw (s : State) : Prop :=
  s.li.queue.length ≤ 16 ∧ (s.li.queue.filter fun o => !o.msg.reply).length ≤ 12
    ∧ (s.li.queue.map fun o => o.msg.urgency).Pairwise (fun a b => b ≤ a)
    ∧ (s.li.queue.filter OutMsg.locked).length = s.drivesMessage.toNat

/-- Outstanding request entries and ISSUED records together are at most six (R61, R65). -/
def RequestLaw (s : State) : Prop := s.tru.outstanding.length + s.issuedCount ≤ 6

/-! ### Line states (R4, R6, R14) -/

/-- In OFFLINE, MISMATCH and SILENCED the station drives nothing, marks nothing and has nothing to send; in LISTENING it has nothing to
send. -/
def QuietLaw (s : State) : Prop :=
  (s.marks = false →
      s.li.driving = none ∧ s.li.marker = false ∧ s.li.holdoff = none ∧ s.li.interval = none)
    ∧ (s.active = false → s.leaving = false → s.li.queue = [])

/-- The changes of line state that one command can make, but for HARDWARE_RESET (01, Line states). -/
def lineMoves : LineState → List LineState
  | .offline => [.offline, .listening]
  | .listening => [.listening, .active, .mismatch, .silenced, .offline]
  | .active => [.active, .leaving, .mismatch, .silenced, .offline]
  | .leaving => [.leaving, .offline]
  | .mismatch => [.mismatch, .offline]
  | .silenced => [.silenced, .offline]

/-! ### Lanes and peers (R24, R34) -/

/-- A lane that is CLAIMING or MINE is the lane of its source's phase (R33, R34). -/
def laneAgrees (s : State) (l : Nat) : Bool :=
  match s.lane l with
  | .mine n => (s.source n).phase == .mine l
  | .claiming n _ => (s.source n).phase == .claiming l
  | _ => true

/-- Every lane CLAIMING or MINE is the lane of its source's phase, so no source has two (R34). -/
def LaneLaw (s : State) : Prop := ∀ l ∈ List.range s.plt.lanes.length, laneAgrees s l = true

/-- A station number: the station's own, or that of a PRESENT peer. -/
def State.known (s : State) (n : Nat) : Bool := !badStation n && (n == s.number || (s.peer n).present)

/-- The holder of a HELD lane is known. -/
def holderKnown (s : State) : Lane → Bool
  | .held h _ _ _ _ => s.known h
  | _ => true

/-- Every lane HELD names a known holder, every entry a talker that is a station number, and every entry with a tag a known talker (R24). The
straps give the own number six bits, and outside OFFLINE it is a station number, as START tests it (R192). No station 0 is due to go ABSENT. -/
def PresenceLaw (s : State) : Prop :=
  (∀ r ∈ s.plt.lanes, holderKnown s r = true)
    ∧ (∀ f ∈ s.cia.feeds, ∀ e ∈ f.entries, badStation e.talker = false ∧ (e.draining = false → s.known e.talker = true))
    ∧ s.number < 64 ∧ (s.li.lineState ≠ .offline → badStation s.number = false)
    ∧ Due.peer 0 ∉ s.owed

/-- The operands of a command fit, and the winner of a lost slot header is a station (log 8 says what happens otherwise). -/
def lawful (c : Instr) : Bool :=
  c.wellFormed &&
    match c with
    | .slotHeaderLost w => !badStation w
    | _ => true

/-! ### Entries (R85, R86) -/

/-- The entries of a feed are of distinct talkers and sources, and a stack is for a CUT-IN feed, its levels rising from bottom to
top. -/
def feedOrdered (c : FeedCfg) (f : Feed) : Prop :=
  (f.entries.map fun e => (e.talker, e.source)).Nodup
    ∧ (f.stack.map Entry.level).Pairwise (· < ·)
    ∧ (mixingFeed c = true → f.stack = []) ∧ (mixingFeed c = false → f.admitted = [])

/-- Every feed's entries stand as R85 and R86 have them. -/
def EntryLaw (s : State) : Prop := ∀ i ∈ List.range 6, feedOrdered (s.feedCfg i) (s.feed i)

/-! ### Places, floors and held entries (R81, R82, R83, R86–R88, R91, R102, R105) -/

/-- An entry of feed `i`, at station `number`, is in order: at most four tags, levels of 1–7, the level of its highest tag, a level at
or above the effective floor, and not the station's own talk from the feed's excluded source (R82, R86). -/
def entryInOrder (number i floor : Nat) (e : Entry) : Prop :=
  e.tags.length ≤ 4 ∧ (∀ x ∈ e.tags, 1 ≤ x.level ∧ x.level ≤ 7) ∧ (1 ≤ e.level ∧ e.level ≤ 7) ∧ e.level = e.tagLevel
    ∧ floor ≤ e.level ∧ ¬(e.talker = number ∧ excludedSource i = some e.source)

/-- The lists of feed `i` are within their places, with one level-7 entry admitted at most (R81, R87, R88, R102, R105). -/
def feedFits (f : Feed) : Prop :=
  f.stack.length ≤ 7 ∧ f.admitted.length ≤ 6 ∧ (f.admitted.filter fun e => e.level == 7).length ≤ 1 ∧ f.deferred.length ≤ 8
    ∧ f.onAir.length ≤ 4 ∧ f.calls.length ≤ 4

/-- The deferred list of a feed is ordered by rank, and its entries wait for a reason: in a CUT-IN feed a top at or above each of them,
in a MIX feed six admitted entries or a level-7 one (R82, R88, R91). -/
def heldInOrder (c : FeedCfg) (f : Feed) : Prop :=
  f.deferred.Pairwise (fun a b => b.above a = false)
    ∧ (mixingFeed c = false → (∀ e ∈ f.deferred, e.level ≤ f.currentLevel) ∧ (f.stack = [] → f.deferred = []))
    ∧ (mixingFeed c = true → f.deferred ≠ [] → f.admitted.length = 6 ∨ f.exclusive = true)

/-- Feed `i` is in order, and empty when it is not in use (R81). Of a feed in use the on-air floor is not below the floor. -/
def feedLawful (number i : Nat) (c : FeedCfg) (f : Feed) : Prop :=
  (∀ e ∈ f.entries, entryInOrder number i (effectiveFloor c f) e) ∧ feedFits f ∧ heldInOrder c f
    ∧ (usedFeed c = false → f.entries = [] ∧ f.onAir = [] ∧ f.calls = []) ∧ (usedFeed c = true → c.floor ≤ c.onAirFloor)

/-- The laws of the device on floors and on the deferred list, and the places of every feed (R86, R91). -/
def ArbiterLaw (s : State) : Prop := ∀ i ∈ List.range 6, feedLawful s.number i (s.feedCfg i) (s.feed i)

/-! ### Configurations (R202) -/

/-- A destination list without repeats whose destinations satisfy `p`. -/
def listOk (p : Nat → Prop) (ds : List Nat) : Prop := ds.Nodup ∧ ∀ d ∈ ds, p d

/-- A destination that can be addressed: neither 0 nor 63 (R55). -/
def addressable (d : Nat) : Prop := d ≠ 0 ∧ d ≠ 63

/-- The station-wide settings are in the ranges of R202. -/
def stationInRange (c : StationCfg) : Prop :=
  (1000 ≤ c.deferLimit ∧ c.deferLimit ≤ 60000) ∧ (100 ≤ c.tapLimit ∧ c.tapLimit ≤ 1000) ∧ c.fieldEnable ≤ 1
    ∧ (2 ≤ c.targetFill ∧ c.targetFill ≤ 6) ∧ c.published ≤ 8 ∧ c.homeFeed ≤ 4

/-- The detector settings of a source are in the ranges of R202. -/
def sourceInRange (c : SourceCfg) : Prop := c.vox ≤ 1 ∧ c.threshold ≤ 7 ∧ 50 ≤ c.hang ∧ c.hang ≤ 2000

/-- The open-talk settings of a source are in order (R182). -/
def openTalkInRange (c : OpenTalkCfg) : Prop :=
  c.count ≤ 4 ∧ listOk addressable c.dests ∧ (c.count ≠ 0 → 1 ≤ c.level ∧ c.level ≤ 7)

/-- The settings of a key are in order (R42). -/
def keyInRange (c : KeyCfg) : Prop :=
  c.fn ≤ 3
    ∧ (c.fn ≠ 0 → c.kind ≤ 2 ∧ c.mode ≤ 2 ∧ c.callKind ≤ 1 ∧ (c.kind = 1 → c.mode = 0))
    ∧ (c.fn = 1 ∨ c.fn = 3 → c.source ≤ 1 ∧ 1 ≤ c.level ∧ c.level ≤ 7)
    ∧ (c.fn = 1 ∨ c.fn = 2 → 1 ≤ c.count ∧ c.count ≤ 4 ∧ listOk addressable c.dests)
    ∧ (c.fn = 3 → c.replyFeed ≤ 3)

/-- The settings of feed `i` are in order (R56, R81, R146, R165). -/
def feedInRange (i : Nat) (c : FeedCfg) : Prop :=
  (if i < 4 then c.type ≤ 2 else c.type = 0 ∨ c.type = 3)
    ∧ (c.type ≠ 0 →
      (1 ≤ c.floor ∧ c.floor ≤ c.onAirFloor ∧ c.onAirFloor ≤ 7) ∧ c.count ≤ 8
        ∧ listOk (fun d => 64 ≤ d ∧ d ≤ 254) c.dests
        ∧ (c.progGain ≤ 127 ∧ c.talkGain ≤ 127 ∧ c.toneGain ≤ 127 ∧ c.talkDim ≤ 127)
        ∧ (∀ d ∈ c.dims, d ≤ 255) ∧ c.ramp ≤ 64 ∧ c.dimSource ≤ 2 ∧ (c.programme ≤ 8 ∨ c.programme = 15)
        ∧ c.callFreq ≤ 7 ∧ c.cueFreq ≤ 7 ∧ (4 ≤ i → c.lead ≤ 2000))

/-- The home flag stands on the home feed alone, a feed in use among F0–F3 (R56, R81). -/
def homeRight (home i : Nat) (c : FeedCfg) : Prop :=
  (c.home = true ↔ i < 4 ∧ home = i) ∧ (c.home = true → c.type ≠ 0)

/-- The memo capacities are in range, and together at most 4096 blocks (R110). -/
def memosInRange (l : List MemoCfg) : Prop :=
  (∀ i ∈ List.range 4, 16 ≤ (l.getD i MemoCfg.absent).capacity ∧ (l.getD i MemoCfg.absent).capacity ≤ 4096)
    ∧ ((l.take 4).map MemoCfg.capacity).sum ≤ 4096

/-- A configuration that START accepts at a station with these straps: every setting is in its range. -/
def configurationInRange (number org : Nat) (c : Configuration) : Prop :=
  (number ≠ 0 ∧ number ≠ 63) ∧ (org = 1 ∨ org = 2) ∧ stationInRange c.station
    ∧ (∀ n ∈ List.range 4, sourceInRange (c.sources.getD n SourceCfg.absent))
    ∧ (∀ n ∈ List.range 2, openTalkInRange (c.openTalk.getD n OpenTalkCfg.absent))
    ∧ (∀ k ∈ List.range 12, keyInRange (c.keys.getD k KeyCfg.absent))
    ∧ (∀ i ∈ List.range 6, feedInRange i (c.feeds.getD i FeedCfg.absent))
    ∧ (∀ i ∈ List.range 6, homeRight c.station.homeFeed i (c.feeds.getD i FeedCfg.absent))
    ∧ memosInRange c.memos

/-! ### Memo channels (R110, R111, R113) -/

/-- Every entry with the number of its feed. -/
def State.allEntries (s : State) : List (Nat × Entry) :=
  (List.range 6).flatMap fun i => (s.feed i).entries.map fun e => (i, e)

/-- The entries whose chains hold channel `c`, as its owners. -/
def State.ownersOf (s : State) (c : Nat) : List Owner :=
  (s.allEntries.filter fun x => x.2.chain.contains c).map fun x => ⟨x.1, x.2.talker, x.2.source⟩

/-- The state that R113 gives the chain of an entry of feed `i`, by the entry's place. -/
def State.chainPlace (s : State) (i : Nat) (e : Entry) : MemoState :=
  let f := s.feed i
  chainState e.draining (isAudible (mixingFeed (s.feedCfg i)) f e) (f.deferred.any (Entry.isFor e.talker e.source))
    (s.lostRun e.chain)

/-- A channel is IDLE and empty, or holds no more blocks than its capacity for its one owner (R111). -/
def channelLawful (s : State) (c : Nat) : Prop :=
  let ch := s.channel c
  ch.blocks.length ≤ (s.memoCfg c).capacity ∧ s.ownersOf c = ch.owner.toList ∧ (ch.owner = none → ch = Channel.rest)
    ∧ (ch.owner ≠ none → ch.state ≠ .idle)

/-- The chain of an entry of feed `i` is a run of consecutive channels, all in the state of the entry's place (R111, R113). -/
def chainLawful (s : State) (i : Nat) (e : Entry) : Prop :=
  e.chain = (List.range e.chain.length).map (fun k => e.chain.headD 0 + k)
    ∧ ∀ c ∈ e.chain, c < 4 ∧ (s.channel c).state = s.chainPlace i e

/-- The law of the device for memo: every channel that is not IDLE belongs to the chain of exactly one entry of one feed, within its
capacity, and the capacities are those that START accepts (R110, R111). -/
def MemoLaw (s : State) : Prop :=
  (∀ c ∈ List.range 4, channelLawful s c) ∧ (∀ x ∈ s.allEntries, chainLawful s x.1 x.2)
    ∧ (s.cp.config ≠ none → memosInRange s.cfg.memos)

/-! ### Clocks (R160) -/

/-- No two RUNNING clocks hold the same origin, destination and feed (R160, R161). -/
def ClockLaw (s : State) : Prop :=
  ∀ c ∈ List.range 4, ∀ d ∈ List.range 4, ∀ k ∈ s.clock c, ∀ j ∈ s.clock d,
    k.origin = j.origin → k.dest = j.dest → k.feed = j.feed → c = d

/-! ### Field queues (R168) -/

/-- A channel's queue: frames at forward distances that rise and stay within 7, of 16-bit numbers; the offset within 0–4 and the loss
count within 0–100 (R168). -/
def chanOrdered (ch : Chan) : Prop :=
  ch.expected < 65536 ∧ ch.offset ≤ 4 ∧ ch.loss ≤ 100
    ∧ (∀ f ∈ ch.queue, f.number < 65536 ∧ forward f.number ch.expected ≤ 7)
    ∧ (ch.queue.map fun f => forward f.number ch.expected).Pairwise (· < ·)

/-- Both field queues stand as R168 has them. -/
def FieldLaw (s : State) : Prop := ∀ ch ∈ s.fb.chans, chanOrdered ch

/-! ### Outputs (R142, R144) -/

/-- A playout buffer holds at most 96 samples, and every sample of a buffer or an output has 24 bits (R142, R144). -/
def OutputLaw (s : State) : Prop :=
  (∀ m ∈ s.mx.mixes, m.playout.length ≤ 96 ∧ m.playout.all fits24 = true) ∧ s.mx.outputs.all fits24 = true

end Sys2Proof.Machine
end

