-- ==== Sys2Proof/Certificates/Slice0/Obligations.lean ====
section
/-! DEFINITION. The statements for the provers, each with the rules of the manual that it rests on. A clause that rests on a choice of
the model names the entry of the assumption log. -/

open Sys2Proof Sys2Proof.Machine

/-- A step takes the command at the front of the queue and answers what `exec` answers on the state with the rest of the queue. With an
empty queue the block idles: its microsecond count goes on by one (DESIGN CHOICE, log 1). -/
def Obligations.StepRunsFrontCommand : Prop :=
  (∀ (c : Instr) (rest : List Instr) (s : State),
      s.pending = c :: rest → step s = exec c { s with pending := rest })
    ∧ ∀ s : State, s.pending = [] → step s = .next { s with li := { s.li with micros := s.li.micros + 1 } }

/-- Every command, with any operands and in any state, answers a next state, and none touches the queue of waiting commands (95, each
step whole; R188). -/
def Obligations.CommandsCompleteAndKeepQueue : Prop :=
  ∀ (c : Instr) (s : State), Safe (exec c s) ∧ ∀ t, exec c s = .next t → t.pending = s.pending

/-- HARDWARE_RESET leaves every block at the values of its chapter, in any state, and records the straps as read (R186, R187). That the
microsecond count, the time of the last mark and the count of openings are 0 is the choice of log 3. -/
def Obligations.HardwareResetValues : Prop :=
  ∀ (number org : Nat) (s : State), ∃ t, exec (.hardwareReset number org) s = .next t ∧ t.pending = s.pending
    ∧ t.li = { lineState := .offline, strapNumber := number, strapOrg := org, marker := false, holdoff := none,
               interval := none, runCount := 0, queue := [], sentThisCycle := false, joinStamp := none, micros := 0,
               markStart := 0, leavingCount := 0, activeCycles := 0, driving := none }
    ∧ (∀ n, t.peer n = ⟨false, 1000, none, false, 0⟩) ∧ (∀ l, t.lane l = .free)
    ∧ t.plt.lanes.length = (if org = 1 then 16 else if org = 2 then 24 else 0)
    ∧ (∀ n, t.source n = ⟨false, .idle, false⟩) ∧ (∀ k, t.key k = ⟨.up, 0, .idle, false, 0, none⟩)
    ∧ (∀ g, t.path g = none) ∧ t.tru.serial = 0 ∧ t.tru.outstanding = [] ∧ (∀ n, t.tru.movePending.getD n false = false)
    ∧ (∀ k, t.callOrigin k = none) ∧ t.tru.tallies = [] ∧ (∀ i, t.feed i = ⟨[], [], [], 0, [], [], none⟩)
    ∧ (∀ c, t.channel c = ⟨.idle, none, [], 0, false⟩) ∧ (∀ i, t.mix i = ⟨none, false, false, none, []⟩)
    ∧ (∀ l, t.mx.store.getD l none = none) ∧ t.mx.outputs = [0, 0, 0, 0]
    ∧ (∀ n, (t.vox n).envelope = 0 ∧ (t.vox n).voice = false ∧ (t.vox n).hang = 0)
    ∧ (∀ i, t.tone i = none) ∧ (∀ c, t.clock c = none)
    ∧ (∀ c, t.chan c = ⟨.idle, false, 0, 0, [], zeroBlock, 0, .none, 0, 0, 0, 0⟩)
    ∧ t.fb.checkFails = 0 ∧ t.fb.framing = false ∧ t.fb.frameNo = 0 ∧ t.fb.gatherPos = 0 ∧ t.fb.gatherA = []
    ∧ t.fb.gatherB = [] ∧ t.fb.hold = none ∧ t.fb.sending = none ∧ t.fb.drops = 0
    ∧ t.cp = ⟨none, [], none, false⟩ ∧ t.notice = false ∧ t.owed = []

/-- The state of reset is the one a hardware reset leaves at a FINE station of number 1 (DESIGN CHOICE, log 2), with no command
waiting, and it keeps every law of the device. -/
def Obligations.ResetKeepsTheLaws : Prop :=
  exec (.hardwareReset 1 1) State.reset = .next State.reset ∧ State.reset.pending = []
    ∧ Sizes State.reset ∧ EventLaw State.reset ∧ QueueLaw State.reset ∧ RequestLaw State.reset ∧ QuietLaw State.reset
    ∧ LaneLaw State.reset ∧ PresenceLaw State.reset ∧ EntryLaw State.reset ∧ ArbiterLaw State.reset
    ∧ MemoLaw State.reset ∧ ClockLaw State.reset ∧ FieldLaw State.reset ∧ OutputLaw State.reset

/-- START in OFFLINE with a block of 392 bytes that passes every check is accepted: the block is stored, every block takes its values,
the key levels are those of the pins (UP for a PORT key, and for a key that is not in use: log 24), LISTENING is entered with
its first holdoff, and LINE-STATE is raised. That the time of the last mark and the count of openings are 0 is the choice of log 3.

START is refused, and nothing else changes: a block of another length with ARG; else BUSY in LEAVING and STATE in every other line
state but OFFLINE; else the reason and the item of the first check of R192 that fails. A refusal made before any check carries no item
(log 9). -/
def Obligations.StartCommand : Prop :=
  (∀ (block : List Nat) (pins : List KeyLevel) (s : State),
    s.li.lineState = .offline → block.length = 392 → pins.length = 12 →
    configurationInRange s.li.strapNumber s.li.strapOrg (configurationOf block) →
    ∃ t, exec (.start block pins) s = .next t ∧ t.pending = s.pending
      ∧ t.cp = { s.cp with config := some (configurationOf block), response := some .accepted, reading := false,
                           events := appendEvent s.cp.events (.lineState .offline .listening none) }
      ∧ t.li = { LineIf.rest s.li.strapNumber s.li.strapOrg with
                   lineState := .listening, micros := s.li.micros,
                   holdoff := some (s.li.micros + 2 * (1024 + 4 * s.li.strapNumber)) }
      ∧ t.plt = Plt.rest s.li.strapOrg
      ∧ (∀ k, k < 12 → t.key k = ⟨if (t.keyCfg k).fn = 0 ∨ (t.keyCfg k).kind = 2 then .up else pins.getD k .up, 0, .idle, false, 0, none⟩)
      ∧ (∀ k, k < 12 → t.callOrigin k = if (t.keyCfg k).fn = 2 then some ⟨.idle, 0⟩ else none)
      ∧ (∀ g, t.path g = none) ∧ t.tru.serial = 0 ∧ t.tru.outstanding = [] ∧ t.tru.tallies = []
      ∧ (∀ i, t.feed i = Feed.rest) ∧ (∀ c, t.channel c = Channel.rest)
      ∧ (∀ i, i < 6 → t.mix i = ⟨if (t.feedCfg i).type = 0 then none else some 0, false, false, none, []⟩)
      ∧ (∀ n, n < 4 → (t.vox n).envelope = 0 ∧ (t.vox n).hang = 0 ∧ ((t.vox n).voice = true ↔ (t.sourceCfg n).vox = 0))
      ∧ (∀ i, t.tone i = none) ∧ (∀ c, t.clock c = none) ∧ t.fb = Fb.rest ∧ t.owed = [])
  ∧ ∀ (block : List Nat) (pins : List KeyLevel) (s : State),
    (block.length ≠ 392 →
      exec (.start block pins) s = .next { s with cp := { s.cp with response := some (.refused .arg none), reading := false } })
    ∧ (block.length = 392 → s.li.lineState = .leaving →
      exec (.start block pins) s = .next { s with cp := { s.cp with response := some (.refused .busy none), reading := false } })
    ∧ (block.length = 392 → s.li.lineState ≠ .leaving → s.li.lineState ≠ .offline →
      exec (.start block pins) s =
        .next { s with cp := { s.cp with response := some (.refused .state none), reading := false } })
    ∧ (block.length = 392 → s.li.lineState = .offline →
      ∀ before k after,
        startChecks s.li.strapNumber s.li.strapOrg (configurationOf block) = before ++ k :: after →
        (∀ x ∈ before, x.fails = false) → k.fails = true →
        exec (.start block pins) s =
          .next { s with cp := { s.cp with response := some (.refused k.reason (some k.item)), reading := false } })

/-- The validation of START passes exactly the configurations whose every setting is in its range and in agreement with the others, at
a station whose straps read a station number 1–62 and an organisation. -/
def Obligations.ValidationIsTheRanges : Prop :=
  ∀ (number org : Nat) (c : Configuration), validate number org c = none ↔ configurationInRange number org c

/-- STOP in ACTIVE is accepted. Where an own TALK-CLOSE is left to send (one in the queue, a path that is OPEN, a close pending) or a
locked message waits for its outcome, the station is in LEAVING: count 0, every key without a path, no outstanding request, no field path,
only TALK-CLOSEs and locked messages in the queue, every path record CLOSING or waiting for its locked TALK-OPEN, no lane being claimed.
Where none is, the station is in OFFLINE at once, with the input runs kept (log 3).

STOP in ACTIVE with a path that is OPEN enters LEAVING with a TALK-CLOSE for the path in the queue, where the queue has room for the
closes: at most two of its messages are TALK-CLOSEs or locked. -/
def Obligations.StopInActive : Prop :=
  (∀ s : State, s.li.lineState = .active → Sizes s →
    let left := (∃ o ∈ s.li.queue, isClose o.msg = true ∨ o.locked = true)
      ∨ ∃ g p, s.path g = some p ∧ (p.state = .opened ∨ p.state = .closing ∧ p.closePending = true)
    (left →
      ∃ t, exec .stop s = .next t ∧ t.cp.response = some .accepted ∧ t.pending = s.pending
        ∧ t.li.lineState = .leaving ∧ t.li.leavingCount = 0 ∧ t.li.marker = s.li.marker ∧ t.li.holdoff = s.li.holdoff
        ∧ t.li.interval = s.li.interval ∧ t.li.driving = s.li.driving ∧ t.li.joinStamp = s.li.joinStamp
        ∧ t.cp.config = s.cp.config ∧ t.cp.events = appendEvent s.cp.events (.lineState .active .leaving none)
        ∧ t.li.queue ≠ [] ∧ (∀ o ∈ t.li.queue, isClose o.msg = true ∨ o.locked = true)
        ∧ (∀ k, k < 12 → (t.key k).logical = .idle ∧ (t.key k).latch = false ∧ (t.key k).pressLength = 0
             ∧ (t.key k).resolved = none ∧ (t.key k).stable = (s.key k).stable
             ∧ (t.key k).debounce = (s.key k).debounce)
        ∧ (∀ g p, t.path g = some p → p.state = .closing ∨ (p.state = .issued ∧ t.lockedMsg (isOpenOf g) = true))
        ∧ t.tru.outstanding = [] ∧ t.tru.serial = s.tru.serial ∧ t.tru.calls = s.tru.calls
        ∧ t.tru.tallies = s.tru.tallies ∧ t.tru.movePending = [false, false, false, false]
        ∧ (∀ c, c < 2 → (t.chan c).state = .idle ∧ (t.chan c).queue = [] ∧ (t.chan c).openTalk = .none)
        ∧ (∀ n, n < 5 → (t.source n).phase = .idle ∨ ∃ l, (t.source n).phase = .mine l ∧ (s.source n).phase = .mine l)
        ∧ t.cia = s.cia ∧ t.mu = s.mu ∧ t.mx = s.mx ∧ t.vd = s.vd ∧ t.tcu = s.tcu ∧ t.owed = s.owed)
    ∧ (¬left → exec .stop s = .next (s.wiped .leaving (some .accepted))))
    ∧ (∀ (s : State) (g : Nat) (p : Path), s.li.lineState = .active → Sizes s →
      (s.li.queue.filter fun o => isClose o.msg || o.locked).length ≤ 2 →
      s.path g = some p → p.state = .opened →
      ∃ t, exec .stop s = .next t ∧ t.li.lineState = .leaving
        ∧ (∃ o ∈ t.li.queue, o.msg = .talkClose p.req.source g)
        ∧ ∃ q, t.path g = some q ∧ q.state = .closing ∧ q.closePending = false ∧ q.successor = none)

/-- STOP in LISTENING, MISMATCH and SILENCED is accepted and enters OFFLINE at once: every collection is emptied, the configuration and
the events are discarded but for LINE-STATE; the straps stay. That the microsecond count and the runs of input samples stay, and that the time
of the last mark and the count of openings are 0, is the choice of log 3. In OFFLINE it is refused with STATE, in LEAVING
with BUSY, and nothing else changes. -/
def Obligations.StopElsewhere : Prop :=
  ∀ s : State,
    (s.li.lineState = .listening ∨ s.li.lineState = .mismatch ∨ s.li.lineState = .silenced →
      exec .stop s = .next (s.wiped s.li.lineState (some .accepted)))
    ∧ (s.li.lineState = .offline →
      exec .stop s = .next { s with cp := { s.cp with response := some (.refused .state none), reading := false } })
    ∧ (s.li.lineState = .leaving →
      exec .stop s = .next { s with cp := { s.cp with response := some (.refused .busy none), reading := false } })

/-- A command of the control port that is refused changes nothing but the response (R189, R190, R194): BUSY in LEAVING; else STATE in a
line state that does not take it; else ARG for an argument. -/
def Obligations.PortRefusalsChangeNothing : Prop :=
  ∀ (s : State) (a b d : Nat),
    (s.li.lineState = .leaving →
      (∀ c ∈ [Instr.stop, .keySetDown a b, .keySetUp a, .callAck a b d, .tallySetOn a b, .tallySetOff a, .cueStart a b d,
              .cueStop a, .memoDiscard a b d], exec c s = .next (s.refusedWith .busy)))
    ∧ (s.li.lineState = .offline →
      (∀ c ∈ [Instr.keySetDown a b, .keySetUp a], exec c s = .next (s.refusedWith .state)))
    ∧ (s.li.lineState ≠ .active → s.li.lineState ≠ .leaving →
      (∀ c ∈ [Instr.callAck a b d, .tallySetOn a b, .tallySetOff a, .cueStart a b d, .cueStop a, .memoDiscard a b d],
        exec c s = .next (s.refusedWith .state)))
    ∧ (s.li.lineState ≠ .offline → s.li.lineState ≠ .leaving →
      (11 < a ∨ 1 < b ∨ (s.keyCfg a).kind ≠ 2 ∨ (s.keyCfg a).fn = 0 →
        exec (.keySetDown a b) s = .next (s.refusedWith .arg))
      ∧ (11 < a ∨ (s.keyCfg a).kind ≠ 2 ∨ (s.keyCfg a).fn = 0 → exec (.keySetUp a) s = .next (s.refusedWith .arg)))
    ∧ (s.li.lineState = .active →
      (5 < a ∨ b = 0 ∨ 62 < b ∨ 11 < d ∨ (s.feedCfg a).type = 0 ∨ (∀ r ∈ (s.feed a).calls, r.caller ≠ b ∨ r.key ≠ d) →
        exec (.callAck a b d) s = .next (s.refusedWith .arg))
      ∧ (a = 0 ∨ a = 63 ∨ 255 < a →
        (∀ c ∈ [Instr.tallySetOn a b, .tallySetOff a, .cueStart a b d, .cueStop a], exec c s = .next (s.refusedWith .arg)))
      ∧ (1 < b → exec (.tallySetOn a b) s = .next (s.refusedWith .arg))
      ∧ (b = 0 ∨ 99 < b ∨ 1 < d → exec (.cueStart a b d) s = .next (s.refusedWith .arg))
      ∧ (5 < a ∨ b = 0 ∨ 62 < b ∨ 3 < d ∨ (∀ e, (s.feed a).find b d = some e → e.chain = []) →
        exec (.memoDiscard a b d) s = .next (s.refusedWith .arg)))

/-- KEY-SET DOWN on an UP and IDLE PORT key in ACTIVE whose function is TALK, or REPLY with a station in its reply register, whose tag
has no record: the press opens. The key is DOWN and OPENING, and holds the resolved destination of a REPLY; the record is PREPARING, or
ISSUED with the next serial and the lane where the source's lane is MINE, the reservation allows and the queue admits its TALK-OPEN; the
source's need is set. A new need of a source in phase NONE picks: the lowest lane that is FREE and that no other own source has picked, PENDING
with its LANE-CLAIM, or WAITING with LANE-WAIT where there is none (R31, R32, R36).

A press on a tag whose record is CLOSING makes the open the record's successor (R60). -/
def Obligations.KeyPressOpens : Prop :=
  ∀ (s : State) (k : Nat) (dests : List Nat) (resolved : Option Nat),
    let c := s.keyCfg k
    let req : OpenReq := ⟨c.source, c.level, c.memo, dests⟩
    s.li.lineState = .active → Sizes s → k < 12 → c.kind = 2 → c.mode ≤ 2 → c.source ≤ 1 →
    (c.fn = 1 ∧ dests = c.dests ∧ resolved = none
      ∨ c.fn = 3 ∧ ∃ n, (s.feed c.replyFeed).reply = some n ∧ dests = [n] ∧ resolved = some n) →
    (s.key k).stable = .up → (s.key k).logical = .idle →
    let pressed : Key := ⟨.down, 0, .opening, c.mode == 1, if c.mode = 2 then 0 else (s.key k).pressLength, resolved⟩
    (s.path k = none →
    ∃ t, exec (.keySetDown k 1) s = .next t ∧ s.changesOnly t [.li, .plt, .ku, .tru, .cp] ∧ s.queueOnly t
      ∧ t.cp.response = some .accepted ∧ t.key k = pressed
      ∧ (∀ j, j ≠ k → t.key j = s.key j ∧ t.path j = s.path j)
      ∧ (t.source c.source).need = true ∧ (∀ n, n ≠ c.source → t.source n = s.source n) ∧ t.plt.peers = s.plt.peers
      ∧ t.plt.lanes = s.plt.lanes
      ∧ (∀ l, s.mineLane c.source = some l →
          let m := openMessage k (Path.prepared req) s.tru.serial l false
          (s.tru.outstanding.length + s.issuedCount < 6 → s.li.queue.length < 12 →
            t.path k = some { Path.prepared req with state := .issued, serial := some s.tru.serial, lane := some l }
              ∧ t.tru.serial = (s.tru.serial + 1) % 256 ∧ t.li.queue = insertMsg m s.li.queue)
          ∧ (6 ≤ s.tru.outstanding.length + s.issuedCount ∨ 12 ≤ s.li.queue.length →
              (∃ lane, t.path k = some { Path.prepared req with lane := lane }) ∧ t.tru.serial = s.tru.serial
                ∧ t.li.queue = s.li.queue))
      ∧ (s.mineLane c.source = none → t.path k = some (Path.prepared req) ∧ t.tru.serial = s.tru.serial)
      ∧ ((s.source c.source).need = true → t.plt = s.plt ∧ t.cp.events = s.cp.events)
      ∧ ((s.source c.source).need = false → (s.source c.source).phase = .idle → s.picks t c.source []))
    ∧ ∀ p, s.path k = some p → p.state = .closing →
      ∃ t, exec (.keySetDown k 1) s = .next t ∧ s.changesOnly t [.ku, .tru, .cp] ∧ t.cp = (s.answered .accepted).cp
        ∧ t.key k = pressed ∧ (∀ j, j ≠ k → t.key j = s.key j ∧ t.path j = s.path j)
        ∧ t.path k = some { p with successor := some req } ∧ t.tru = { s.tru with paths := t.tru.paths }

/-- A closing press or release of a PORT TALK or REPLY key, in ACTIVE: the release of a MOMENTARY key, the release of an AUTO key held for
the tap limit, a press of a LATCHING key that is OPENING or LATCHED, and a press of an AUTO key with its latch flag set. The key is IDLE at
its new level. A PREPARING record is freed, and with the last record of S0 or S1 its need ends (R38); an ISSUED one is freed with its TALK-OPEN,
which is not locked, withdrawn. An OPEN one is CLOSING: with its TALK-CLOSE in the queue, or close pending where all 16 places are full, or
where a re-announce of the tag is locked, which the TALK-CLOSE waits for (log 29). A CLOSING one drops its successor.

A release within the tap limit latches an AUTO key: LATCHED where its path is OPEN, and still OPENING, with the latch flag set, before that. The
release of a LATCHING key, and of a LATCHED AUTO one, does nothing more. -/
def Obligations.KeyReleaseCloses : Prop :=
  ∀ (s : State) (k : Nat), let c := s.keyCfg k
    s.li.lineState = .active → Sizes s → k < 12 → c.kind = 2 → c.fn = 1 ∨ c.fn = 3 →
    (∀ (command : Instr) (level : KeyLevel),
      ((s.key k).stable = .down ∧ command = .keySetUp k ∧ level = .up
          ∧ ((s.key k).logical = .opening ∨ (s.key k).logical = .opened)
          ∧ (c.mode = 0 ∨ c.mode = 2 ∧ (s.key k).latch = false ∧ s.cfg.station.tapLimit ≤ (s.key k).pressLength))
        ∨ ((s.key k).stable = .up ∧ command = .keySetDown k 1 ∧ level = .down
          ∧ ((s.key k).logical = .opening ∨ (s.key k).logical = .latched)
          ∧ (c.mode = 1 ∨ c.mode = 2 ∧ (s.key k).latch = true)) →
      ∃ t, exec command s = .next t ∧ s.changesOnly t [.li, .plt, .ku, .tru, .cp] ∧ s.queueOnly t
        ∧ t.cp.response = some .accepted
        ∧ t.key k = ⟨level, 0, .idle, false, (s.key k).pressLength, none⟩
        ∧ (∀ j, j ≠ k → t.key j = s.key j ∧ t.path j = s.path j)
        ∧ (∀ p, s.path k = some p →
            (p.state = .preparing → t.path k = none
              ∧ (p.req.source ≤ 1 → (∀ g q, s.path g = some q → q.req.source = p.req.source → g = k) →
                  (s.source p.req.source).need = true → s.needEnds t p.req.source))
            ∧ (p.state = .closing → t.path k = some { p with successor := none } ∧ t.li = s.li ∧ t.plt = s.plt)
            ∧ (p.state = .issued → s.lockedMsg (isOpenOf k) = false →
                t.path k = none ∧ ∀ o ∈ t.li.queue, isOpenOf k o.msg = false)
            ∧ (p.state = .opened → s.lockedMsg (isReannounceOf k) = false → s.li.queue.length < 16 →
                t.path k = some { p with state := .closing, reannouncePending := false, closePending := false }
                  ∧ ∃ o ∈ t.li.queue, o.msg = .talkClose p.req.source k)
            ∧ (p.state = .opened → 16 ≤ (s.li.queue.filter fun o => o.locked || !isReannounceOf k o.msg).length →
                t.path k = some { p with state := .closing, reannouncePending := false, closePending := true })
            ∧ (p.state = .opened → s.lockedMsg (isReannounceOf k) = true →
                t.path k = some { p with state := .closing, reannouncePending := false, closePending := true }
                  ∧ (t.li.queue.filter fun o => isClose o.msg) = s.li.queue.filter fun o => isClose o.msg)))
    ∧ ((s.key k).stable = .down → c.mode = 2 → (s.key k).logical = .opened ∨ (s.key k).logical = .opening → (s.key k).latch = false →
        (s.key k).pressLength < s.cfg.station.tapLimit →
        ∃ t, exec (.keySetUp k) s = .next t ∧ s.changesOnly t [.ku, .cp] ∧ t.cp = (s.answered .accepted).cp
          ∧ t.key k = { s.key k with
              stable := .up, debounce := 0, latch := true
              logical := if (s.key k).logical = .opened then .latched else .opening }
          ∧ ∀ j, j ≠ k → t.key j = s.key j)
    ∧ ((s.key k).stable = .down → c.mode = 1 ∨ c.mode = 2 ∧ (s.key k).logical = .latched →
        exec (.keySetUp k) s =
          .next ((s.modKey k fun r => { r with stable := .up, debounce := 0 }).answered .accepted))

/-- KEY-SET is accepted where the press it makes is refused: in LISTENING, MISMATCH and SILENCED a press of a PORT key raises KEY-REFUSED
with LINE, and in ACTIVE a press of a REPLY key whose register is empty raises NO-REPLY; the key is DOWN and nothing else changes. The level
that a key already has changes nothing.

KEY-SET DOWN on an UP PORT key whose function is CALL, in ACTIVE: a CALL is offered. Admitted, the key's record is QUEUED with one
more unsent CALL; with 12 places filled, KEY-REFUSED is raised with QUEUE and the record is unchanged. -/
def Obligations.KeyPressesWithoutPath : Prop :=
  (∀ (s : State) (k : Nat), let c := s.keyCfg k
      let down := s.modKey k fun r => { r with stable := .down, debounce := 0 }
      let refusedBy := fun r : KeyRefusal => (down.raise (.keyRefused k r)).answered .accepted
      k < 12 → Sizes s → c.kind = 2 → c.fn ≠ 0 →
      ((s.key k).stable = .up → s.li.lineState = .listening ∨ s.li.lineState = .mismatch ∨ s.li.lineState = .silenced →
          exec (.keySetDown k 1) s = .next (refusedBy .line))
      ∧ ((s.key k).stable = .up → (s.key k).logical = .idle → s.li.lineState = .active → c.fn = 3 → c.mode ≤ 2 →
          (s.feed c.replyFeed).reply = none → exec (.keySetDown k 1) s = .next (refusedBy .noReply))
      ∧ (s.li.lineState ≠ .offline → s.li.lineState ≠ .leaving →
          ((s.key k).stable = .down → exec (.keySetDown k 1) s = .next (s.answered .accepted))
          ∧ ((s.key k).stable = .up → exec (.keySetUp k) s = .next (s.answered .accepted))))
    ∧ (∀ (s : State) (k : Nat) (r : CallOrigin), let c := s.keyCfg k
      let down := s.modKey k fun x => { x with stable := .down, debounce := 0 }
      s.li.lineState = .active → k < 12 → Sizes s → c.kind = 2 → c.fn = 2 → (s.key k).stable = .up →
      s.callOrigin k = some r →
      (s.li.queue.length < 12 →
        ∃ t, exec (.keySetDown k 1) s = .next t ∧ s.changesOnly t [.li, .ku, .tru, .cp]
          ∧ t.li = { s.li with queue := insertMsg (.call k c.callKind c.dests) s.li.queue }
          ∧ t.ku = down.ku ∧ t.cp = (s.answered .accepted).cp
          ∧ t.tru = { s.tru with calls := s.tru.calls.set k (some ⟨.queued, r.unsent + 1⟩) })
      ∧ (12 ≤ s.li.queue.length →
        exec (.keySetDown k 1) s = .next ((down.raise (.keyRefused k .queue)).answered .accepted)))

/-- CALL-ACK, TALLY-SET ON and OFF, CUE-START and CUE-STOP in ACTIVE with arguments in range: each offers its message. Admitted, it stands
in the queue, the call record is cleared, the tally list holds the destination with a refresh count of 0 or no longer holds it, and
the answer is ACCEPTED. With 12 places filled the answer is QUEUE and nothing changes; a ninth destination is refused with
FULL. That the CUE of CUE-STOP has mode bit 0 is the choice of log 9. -/
def Obligations.OfferingCommands : Prop :=
  ∀ (s : State) (a b d : Nat), s.li.lineState = .active →
    let queued := fun m => { s.li with queue := insertMsg m s.li.queue }
    let yes := (s.answered .accepted).cp
    let listed := ∃ r ∈ s.tru.tallies, r.dest = a
    (a ≤ 5 → 1 ≤ b → b ≤ 62 → d ≤ 11 → (s.feedCfg a).type ≠ 0 → (∃ r ∈ (s.feed a).calls, r.caller = b ∧ r.key = d) →
      (s.li.queue.length < 12 →
        exec (.callAck a b d) s = .next { s with
          li := queued (.callAck b a d), cp := yes
          cia := { s.cia with feeds := s.cia.feeds.modify a fun f =>
            { f with calls := f.calls.filter fun r => !(r.caller == b && r.key == d) } } })
      ∧ (12 ≤ s.li.queue.length → exec (.callAck a b d) s = .next (s.refusedWith .queue)))
    ∧ (a ≠ 0 → a ≠ 63 → a ≤ 255 →
      (s.li.queue.length < 12 →
        (listed → exec (.tallySetOn a 1) s = .next { s with
          li := queued (.tally a true), cp := yes
          tru := { s.tru with tallies := s.tru.tallies.map fun r => if r.dest = a then { r with refresh := 0 } else r } })
        ∧ (¬listed → s.tru.tallies.length < 8 → exec (.tallySetOn a 1) s = .next { s with
          li := queued (.tally a true), cp := yes
          tru := { s.tru with tallies := s.tru.tallies ++ [⟨a, 0⟩] } })
        ∧ exec (.tallySetOff a) s = .next { s with
          li := queued (.tally a false), cp := yes
          tru := { s.tru with tallies := s.tru.tallies.filter fun r => r.dest != a } }
        ∧ (1 ≤ b → b ≤ 99 → d ≤ 1 →
          exec (.cueStart a b d) s = .next { s with li := queued (.cue a b d), cp := yes })
        ∧ exec (.cueStop a) s = .next { s with li := queued (.cue a 0 0), cp := yes })
      ∧ (¬listed → 8 ≤ s.tru.tallies.length → exec (.tallySetOn a 1) s = .next (s.refusedWith .full))
      ∧ (12 ≤ s.li.queue.length →
        (listed ∨ s.tru.tallies.length < 8 → exec (.tallySetOn a 1) s = .next (s.refusedWith .queue))
        ∧ exec (.tallySetOff a) s = .next (s.refusedWith .queue)
        ∧ (1 ≤ b → b ≤ 99 → d ≤ 1 → exec (.cueStart a b d) s = .next (s.refusedWith .queue))
        ∧ exec (.cueStop a) s = .next (s.refusedWith .queue)))

/-- MEMO-DISCARD in ACTIVE for an entry that has a chain is accepted, and raises no event: every channel of the chain returns to IDLE, with
no block left, and no other entry's channel loses a block. An entry with a tag keeps its place with no chain, and nothing else changes; a
draining entry is removed from its feed, and every other entry stays. -/
def Obligations.MemoDiscardCommand : Prop :=
  ∀ (s : State) (i talker src : Nat) (e : Entry),
    s.li.lineState = .active → Sizes s → EntryLaw s → ArbiterLaw s → MemoLaw s → i ≤ 5 → 1 ≤ talker → talker ≤ 62 → src ≤ 3 →
    (s.feed i).find talker src = some e → e.chain ≠ [] →
    ∃ t, exec (.memoDiscard i talker src) s = .next t ∧ t.cp = (s.answered .accepted).cp
      ∧ (∀ c ∈ e.chain, t.channel c = ⟨.idle, none, [], 0, false⟩) ∧ (∀ j, j ≠ i → t.feed j = s.feed j)
      ∧ (e.draining = false →
          s.changesOnly t [.cia, .mu, .cp] ∧ (t.feed i).find talker src = some { e with chain := [] }
            ∧ (t.feed i).place talker src = (s.feed i).place talker src
            ∧ (∀ x ∈ (s.feed i).entries, x.talker ≠ talker ∨ x.source ≠ src → (t.feed i).find x.talker x.source = some x)
            ∧ ∀ c, c ∉ e.chain → t.channel c = s.channel c)
      ∧ (e.draining = true →
          s.changesOnly t [.li, .cia, .mu, .cp] ∧ s.queueOnly t ∧ (t.feed i).find talker src = none
            ∧ (∀ x ∈ (s.feed i).entries, x.talker ≠ talker ∨ x.source ≠ src → (t.feed i).find x.talker x.source ≠ none)
            ∧ ∀ c, c ∉ e.chain → (t.channel c).blocks = (s.channel c).blocks ∧ (t.channel c).owner = (s.channel c).owner)

/-- QUERY with an index in range is answered in every line state with the record of the item as it stands, and changes nothing else; an
index out of range is refused with ARG. The layout of the records is the model's (log 9).

QUERY CLIP returns the clip flag of a feed and clears it; the flags of the other feeds stay, and an index above 5 is refused with
ARG.

EVENT-READ returns the oldest event with the number of those behind it, or EMPTY, and removes nothing; the end of that response
removes the event; a transaction that ends before leaves it at the head, where the next EVENT-READ finds it. A command that cannot be
read is refused with ARG. -/
def Obligations.QueryAndEventReading : Prop :=
  (∀ (s : State) (n : Nat),
      exec (.queryLine n) s = .next (s.answered (.record
        [q1 s.li.lineState.code, qFlag s.li.marker, q1 s.li.strapNumber, q1 s.li.strapOrg, q4? s.li.joinStamp,
         q1? (if s.li.lineState = .listening then some s.li.runCount else none), q1 s.li.queue.length,
         q1? (if s.li.lineState = .leaving then some s.li.leavingCount else none)]))
      ∧ (1 ≤ n → n ≤ 62 → exec (.queryPeer n) s = .next (s.answered (.record
          [qFlag (s.peer n).present, q2 (s.peer n).age, q4? (s.peer n).stamp, qFlag (s.peer n).field,
           q1 (s.peer n).programme])))
      ∧ (n < lanesOf s.li.strapOrg → exec (.queryLane n) s = .next (s.answered (.record
          (match s.lane n with
           | .free => [q1 0]
           | .held h src p age seen => [q1 1, q1 h, q1 src, q1 p, q1 age, qFlag seen]
           | .claiming src count => [q1 2, q1 src, q1 count]
           | .mine src => [q1 3, q1 src]))))
      ∧ (n ≤ 4 → exec (.querySource n) s = .next (s.answered (.record (s.sourceRecord n))))
      ∧ (n ≤ 11 → exec (.queryKey n) s = .next (s.answered (.record (s.keyRecord n))))
      ∧ (n ≤ 14 → exec (.queryPath n) s = .next (s.answered (.record (s.pathRecord n))))
      ∧ (n ≤ 5 → exec (.queryFeed n) s = .next (s.answered (.record (s.feedRecord n))))
      ∧ (n ≤ 3 → exec (.queryMemo n) s = .next (s.answered (.record (s.memoRecord n))))
      ∧ (n ≤ 2 → exec (.queryField n) s = .next (s.answered (.record (s.fieldRecord n))))
      ∧ (n ≤ 3 → exec (.queryCue n) s = .next (s.answered (.record
          (match s.clock n with
           | none => [q1 0]
           | some k => [q1 1, q1 k.origin, q1 k.dest, q1 k.feed, q1 k.seconds, qFlag k.repeats, q4 k.remaining,
                        q2 (if k.feed = 4 ∨ k.feed = 5 then (s.feedCfg k.feed).lead else 0)]))))
      ∧ (n = 0 ∨ 62 < n → exec (.queryPeer n) s = .next (s.refusedWith .arg))
      ∧ (lanesOf s.li.strapOrg ≤ n → exec (.queryLane n) s = .next (s.refusedWith .arg))
      ∧ (4 < n → exec (.querySource n) s = .next (s.refusedWith .arg))
      ∧ (11 < n → exec (.queryKey n) s = .next (s.refusedWith .arg))
      ∧ (14 < n → exec (.queryPath n) s = .next (s.refusedWith .arg))
      ∧ (5 < n → exec (.queryFeed n) s = .next (s.refusedWith .arg))
      ∧ (3 < n → exec (.queryMemo n) s = .next (s.refusedWith .arg))
      ∧ (2 < n → exec (.queryField n) s = .next (s.refusedWith .arg))
      ∧ (3 < n → exec (.queryCue n) s = .next (s.refusedWith .arg)))
    ∧ (∀ (s : State) (i : Nat),
      (i ≤ 5 → ∃ t, exec (.queryClip i) s = .next t ∧ s.changesOnly t [.mx, .cp]
        ∧ t.cp = (s.answered (.record [qFlag (s.mix i).clip])).cp
        ∧ t.mx = { s.mx with mixes := t.mx.mixes } ∧ t.mix i = { s.mix i with clip := false }
        ∧ ∀ j, j ≠ i → t.mix j = s.mix j)
      ∧ (5 < i → exec (.queryClip i) s = .next (s.refusedWith .arg)))
    ∧ ∀ (s : State) (e : Event) (rest : List Event) (code : Nat) (args taken : List Nat),
      (s.cp.events = [] → exec .eventRead s = .next (s.answered .empty))
      ∧ (s.cp.events = e :: rest →
          let reading : State := { s with cp := { s.cp with response := some (.event rest.length e), reading := true } }
          let cut : State := { s with cp := { s.cp with response := none, reading := false } }
          exec .eventRead s = .next reading
            ∧ exec .eventReadComplete reading =
                .next { s with cp := { reading.cp with events := rest, reading := false } }
            ∧ exec (.transactionAbort taken) reading = .next cut
            ∧ exec .eventRead cut = .next reading)
      ∧ (s.cp.reading = false → exec .eventReadComplete s = .next s)
      ∧ exec (.transactionAbort taken) s = .next { s with cp := { s.cp with response := none, reading := false } }
      ∧ exec (.unknownCommand code args) s = .next (s.refusedWith .arg)

/-- CYCLE_OPENING in LISTENING, ACTIVE and LEAVING, short of the 20th of LEAVING: the start of the mark is the station's time, the
holdoff is reloaded with 1024 + 4N µs from it, a mark that the station is not sending ends its duty, the counts of the line
interface go on by one, and of its other state nothing but the queue can change. In MISMATCH and SILENCED the cycle opens too: the start of the
mark is noted, no holdoff runs, and nothing is queued. In OFFLINE no cycle opens. -/
def Obligations.OpeningReloadsHoldoff : Prop :=
  ∀ (s : State) (pins : List KeyLevel) (apart : List DueKind), s.owed = [] →
    (s.li.lineState = .listening ∨ s.li.lineState = .active ∨ s.li.lineState = .leaving ∧ s.li.leavingCount < 19 →
      let own := match s.li.driving with
        | some (.mark _) => true
        | _ => false
      ∃ t q, exec (.cycleOpening pins apart) s = .next t ∧ t.cp.config = s.cp.config
        ∧ t.mx.cycle = s.mx.cycle + 1 ∧ t.mx.localBlock = toBlock s.mx.localRun ∧ t.mx.store = s.mx.store
        ∧ t.li = { s.li with
            queue := q, markStart := s.li.micros, sentThisCycle := false
            holdoff := some (s.li.micros + (1024 + 4 * s.li.strapNumber))
            marker := s.li.marker && own, interval := if own then s.li.interval else none
            leavingCount := if s.li.lineState = .leaving then s.li.leavingCount + 1 else s.li.leavingCount
            activeCycles := if s.li.lineState = .active then s.li.activeCycles + 1 else s.li.activeCycles })
    ∧ (s.li.lineState = .mismatch ∨ s.li.lineState = .silenced → s.li.driving = none →
      ∃ t, exec (.cycleOpening pins apart) s = .next t ∧ t.cp.config = s.cp.config
        ∧ t.mx.cycle = s.mx.cycle + 1 ∧ t.mx.localBlock = toBlock s.mx.localRun ∧ t.mx.store = s.mx.store
        ∧ t.li.queue.length ≤ s.li.queue.length
        ∧ t.li = { s.li with
            queue := t.li.queue, markStart := s.li.micros, sentThisCycle := false, holdoff := none, marker := false
            interval := none })
    ∧ (s.li.lineState = .offline → exec (.cycleOpening pins apart) s = .next s)

/-- CYCLE_OPENING in ACTIVE at a station without PIN-LEVEL keys, with every due step left to its own command, advances each age and count by
one, to its limit: the silence ages of the peers, the ages and windows of the lanes, the debounce counts and the press lengths of AUTO keys,
the ages of requests, the refresh counts of the tally list, the ages of on-air and call records and of held entries, the cue clocks, the
loss counts, the tones, and by its block each detector's envelope and hang count. A clock whose count is at its lead, or 1 to 5 seconds
before it, leaves its tone request, and one at zero its zero. Held entries are stated for a feed in which no entry with a chain drains.

A due step that is not left to its command is taken inside the opening: the 20th opening of LEAVING ends in OFFLINE (log 3); in LISTENING and ACTIVE
a peer goes ABSENT at age 1000, a HELD lane is FREE at age 4; in ACTIVE a PRESENCE is offered at every 250th opening, a level is taken at the eighth
difference, a claim of count 2 is MINE, the oldest request retires at age 16, a tally is announced again at 500, held entries, on-air records and
calls expire, a tone goes to its next phase, a clock at zero reloads or is IDLE, a hang ends and a silent field channel is LOST. Where another due
step could act on the same record first, the clause has that one left apart. An event is said to be in the queue where the queue has not filled. -/
def Obligations.OpeningCounts : Prop :=
  (∀ (s : State) (pins : List KeyLevel) (apart : List DueKind),
    s.owed = [] → s.li.lineState = .active → Sizes s → (∀ d : Due, d.kind ∈ apart) →
    (∀ k, k < 12 → (s.keyCfg k).kind ≠ 1) →
    ∃ t, exec (.cycleOpening pins apart) s = .next t
      ∧ (∀ n, 1 ≤ n → n ≤ 62 →
          t.peer n = if n ≠ s.number ∧ (s.peer n).present = true
            then { s.peer n with age := min ((s.peer n).age + 1) 1000 } else s.peer n)
      ∧ (∀ l, l < s.plt.lanes.length → t.lane l = match s.lane l with
          | .held h src p age seen => .held h src p (min (age + 1) 4) seen
          | .claiming n count => if count < 2 then .claiming n (count + 1) else .claiming n count
          | r => r)
      ∧ (∀ k, k < 12 → (s.keyCfg k).fn ≠ 0 → (s.keyCfg k).kind = 0 →
          (t.key k).stable = (s.key k).stable
            ∧ (t.key k).debounce = if pins.getD k .up = (s.key k).stable then 0
                else if (s.key k).debounce < 7 then (s.key k).debounce + 1 else (s.key k).debounce)
      ∧ (∀ k, k < 12 → (s.keyCfg k).fn = 1 ∨ (s.keyCfg k).fn = 3 →
          (t.key k).logical = (s.key k).logical ∧ (t.key k).pressLength =
            if (s.keyCfg k).mode = 2 ∧ (s.key k).stable = .down ∧ (s.key k).latch = false ∧ (s.key k).logical ≠ .idle
                ∧ (s.key k).pressLength < s.cfg.station.tapLimit
              then (s.key k).pressLength + 1 else (s.key k).pressLength)
      ∧ t.tru.outstanding = s.tru.outstanding.map (fun o => { o with age := min (o.age + 1) 16 })
      ∧ ((s.tru.tallies.map TallyOrigin.dest).Nodup →
          t.tru.tallies = s.tru.tallies.map fun r => { r with refresh := min (r.refresh + 1) 500 })
      ∧ (∀ i, i < 6 →
          (t.feed i).onAir = (s.feed i).onAir.map (fun r => { r with age := min (r.age + 1) 2000 })
            ∧ (t.feed i).calls = (s.feed i).calls.map (fun r => { r with age := min (r.age + 1) 30000 })
            ∧ ((∀ e ∈ (s.feed i).entries, e.chain ≠ [] → e.draining = false) →
                (t.feed i).deferred.map (fun e => (e.talker, e.source, e.deferAge))
                  = (s.feed i).deferred.map (fun e =>
                      (e.talker, e.source, min (e.deferAge + 1) s.cfg.station.deferLimit)))
            ∧ t.tone i = if (s.feedCfg i).type = 0 then s.tone i
                else (s.tone i).map fun x => { x with mixes := x.mixes + 1, samples := x.samples + 48 })
      ∧ (∀ c, c < 4 → t.clock c = (s.clock c).map fun k => { k with remaining := k.remaining - 1 })
      ∧ (∀ c k, c < 4 → s.clock c = some k →
          let lead := if k.feed = 4 ∨ k.feed = 5 then (s.feedCfg k.feed).lead else 0
          let r := k.remaining - 1
          (Due.cueTone c k.feed .cueZero ∈ t.owed ↔ r = lead)
            ∧ (Due.cueTone c k.feed .cueBeep ∈ t.owed ↔
                r = lead + 1000 ∨ r = lead + 2000 ∨ r = lead + 3000 ∨ r = lead + 4000 ∨ r = lead + 5000)
            ∧ (Due.cueZero c ∈ t.owed ↔ r = 0))
      ∧ (∀ c, c < 2 → (t.chan c).loss =
          if (s.chan c).state = .filling ∨ (s.chan c).state = .playing then min ((s.chan c).loss + 1) 100
          else (s.chan c).loss)
      ∧ t.vox 0 = (s.vox 0).evaluated (s.sourceCfg 0) (toBlock s.vd.micA)
      ∧ t.vox 1 = (s.vox 1).evaluated (s.sourceCfg 1) (toBlock s.vd.micB)
      ∧ ∀ c, c < 2 → t.vox (2 + c) = (s.vox (2 + c)).evaluated (s.sourceCfg (2 + c)) (toBlock (t.fieldBlock c)))
  ∧ ∀ (s : State) (pins : List KeyLevel) (apart : List DueKind), s.owed = [] → Sizes s →
    (s.li.lineState = .leaving → 19 ≤ s.li.leavingCount → .leaving ∉ apart →
      exec (.cycleOpening pins apart) s = .next (s.wiped .leaving s.cp.response))
    ∧ (s.li.lineState = .listening ∨ s.li.lineState = .active →
      ∃ t, exec (.cycleOpening pins apart) s = .next t
        ∧ (∀ n, 1 ≤ n → n ≤ 62 → n ≠ s.number → (s.peer n).present = true → 999 ≤ (s.peer n).age → .peer ∉ apart →
            t.peer n = ⟨false, 1000, none, false, 0⟩ ∧ (s.li.lineState = .active → t.reports (.peerChange n false none))
              ∧ (∀ l src p age seen, t.lane l ≠ .held n src p age seen)
              ∧ ∀ i, i < 6 → (∀ e ∈ (t.feed i).entries, e.talker = n → e.draining = true)
                ∧ (∀ r ∈ (t.feed i).calls, r.caller ≠ n) ∧ ∀ r ∈ (t.feed i).onAir, r.origin ≠ n)
        ∧ (∀ l h src p age seen, l < s.plt.lanes.length → s.lane l = .held h src p age seen → .lane ∉ apart →
            (3 ≤ age → t.lane l = .free)
            ∧ (age < 3 → (s.peer h).present = false ∨ (s.peer h).age < 999 → (∀ n, n < 5 → (s.source n).phase ≠ .claiming l ∧ (s.source n).phase ≠ .mine l) →
              t.lane l = .held h src p (age + 1) seen)))
    ∧ (s.li.lineState = .active →
      ∃ t, exec (.cycleOpening pins apart) s = .next t
        ∧ ((s.li.activeCycles + 1) % 250 = 0 → .presence ∉ apart → s.li.queue.length < 12 → ∃ o ∈ t.li.queue, o.msg =
            .presence false (s.li.joinStamp.getD 0) (s.cfg.station.fieldEnable == 1) s.cfg.station.published)
        ∧ (∀ k, k < 12 → (s.keyCfg k).fn ≠ 0 → (s.keyCfg k).kind = 0 → pins.getD k .up ≠ (s.key k).stable →
            7 ≤ (s.key k).debounce → .debounce ∉ apart → (t.key k).stable = pins.getD k .up ∧ (t.key k).debounce = 0)
        ∧ (∀ l n count, s.lane l = .claiming n count → 2 ≤ count → n < 5 → LaneLaw s → .claim ∉ apart →
            DueKind.debounce ∈ apart → DueKind.fieldLoss ∈ apart → (∀ k, k < 12 → (s.keyCfg k).kind ≠ 1) →
            t.lane l = .mine n ∧ (t.source n).phase = .mine l ∧ (t.source n).moved = false)
        ∧ (∀ o rest, s.tru.outstanding = o :: rest → 15 ≤ o.age → .retire ∉ apart →
            t.tru.outstanding = rest.map (fun x => { x with age := min (x.age + 1) 16 }) ∧ t.reports o.result)
        ∧ ((s.tru.tallies.map TallyOrigin.dest).Nodup → ∀ r ∈ s.tru.tallies, 499 ≤ r.refresh → .refresh ∉ apart →
            ((∃ o ∈ t.li.queue, o.msg = .tally r.dest true) ∧ { r with refresh := 0 } ∈ t.tru.tallies)
              ∨ ({ r with refresh := 500 } ∈ t.tru.tallies ∧ 12 ≤ t.li.queue.length))
        ∧ (∀ i, i < 6 →
            (∀ e ∈ (s.feed i).deferred, s.cfg.station.deferLimit ≤ e.deferAge + 1 → .defer ∉ apart → DueKind.peer ∈ apart →
                EntryLaw s →
              (t.feed i).find e.talker e.source = none ∧ (e.tags ≠ [] →
                (∃ o ∈ t.li.queue, o.msg = .feedNotice i e.talker e.source 3 3) ∨ 16 ≤ t.li.queue.length))
            ∧ (∀ r ∈ (s.feed i).onAir, 1999 ≤ r.age → .onAir ∉ apart →
              (∀ x ∈ (t.feed i).onAir, ¬(x.origin = r.origin ∧ x.dest = r.dest))
                ∧ ((s.feed i).onAir = [r] → DueKind.peer ∈ apart → t.reports (.tallyChange i false r.origin r.dest .expired)))
            ∧ (∀ r ∈ (s.feed i).calls, 29999 ≤ r.age → .callExpiry ∉ apart →
              (∀ x ∈ (t.feed i).calls, ¬(x.caller = r.caller ∧ x.key = r.key))
                ∧ (DueKind.peer ∈ apart → t.reports (.callExpired i r.caller r.key .age)))
            ∧ ∀ x, s.tone i = some x → usedFeed (s.feedCfg i) = true → x.phase < x.pattern.phases.length →
              (x.pattern.phases.getD x.phase (false, 0)).2 ≤ x.mixes + 1 → .tonePhase ∉ apart →
              DueKind.cueTone ∈ apart → DueKind.callRepeat ∈ apart →
              t.tone i = if x.phase + 1 < x.pattern.phases.length then some ⟨x.pattern, x.phase + 1, 0, 0⟩ else none)
        ∧ (∀ c k, c < 4 → s.clock c = some k → k.remaining = 1 → .cueZero ∉ apart → .cueTone ∉ apart →
            (k.repeats = true → (s.peer k.origin).present = true → DueKind.peer ∈ apart →
              t.clock c = some { k with remaining := 1000 * k.seconds })
            ∧ (k.repeats = false → t.clock c = none ∧ t.reports (.cueExpired c k.feed k.origin k.dest false)))
        ∧ (∀ n, n < 2 → .hang ∉ apart →
            let v := (s.vox n).evaluated (s.sourceCfg n) (toBlock (if n = 0 then s.vd.micA else s.vd.micB))
            (s.sourceCfg n).vox ≠ 0 → v.voice = true → (s.sourceCfg n).hang ≤ v.hang →
            t.vox n = { v with voice := false, hang := 0 })
        ∧ ∀ c, c < 2 → (s.chan c).state = .filling ∨ (s.chan c).state = .playing → 99 ≤ (s.chan c).loss → .fieldLoss ∉ apart →
            (t.chan c).state = .lost ∧ (t.chan c).queue = [] ∧ (t.chan c).loss = 0 ∧ (t.source (2 + c)).need = false
              ∧ t.reports (.fieldState c (s.chan c).state .lost (s.chan c).expected .loss))

/-- MARK_RECEIVED for a mark the station did not send. In LISTENING a good mark of another station and of the own organisation drops
duty, refreshes the marker's entry without an event and is counted, up to seven; a failing one, or one of number 0 or 63, restarts the
count. In ACTIVE a good one drops duty and refreshes the entry, with PEER-CHANGE when it was ABSENT; a failing one drops duty. In LEAVING every
such mark drops duty and does no more; in OFFLINE, MISMATCH and SILENCED it does nothing. The own mark read back changes nothing.

The station becomes ACTIVE from LISTENING, its queue empty, with the *new* PRESENCE: at the start of the eighth good mark, taken
inside the mark's command or by RUN_COUNT_COMPLETE where that is left apart, with MARKER clear; and at the start of its own mark that is
sent, with MARKER set and the next mark 1000 µs on. -/
def Obligations.MarksHeardAndEntryToActive : Prop :=
  (∀ (s : State) (m : HeardMark) (apart : List DueKind), m.own = false →
    let dropped := { s.li with marker := false, interval := none }
    let heard : State := { s with
      li := dropped, plt := { s.plt with peers := s.plt.peers.modify (m.number - 1) Peer.heard } }
    (s.li.lineState = .listening →
      (m.good = true → 1 ≤ m.number → m.number ≤ 62 → m.number ≠ s.number → m.org = s.li.strapOrg → s.li.runCount < 7 →
        exec (.markReceived m apart) s = .next { heard with li := { dropped with runCount := s.li.runCount + 1 } })
      ∧ (m.good = false ∨ m.number = 0 ∨ 62 < m.number →
        exec (.markReceived m apart) s = .next { s with li := { dropped with runCount := 0 } }))
    ∧ (s.li.lineState = .active →
      (m.good = true → 1 ≤ m.number → m.number ≤ 62 → m.number ≠ s.number → m.org = s.li.strapOrg →
        exec (.markReceived m apart) s =
          .next (if (s.peer m.number).present then heard else heard.raise (.peerChange m.number true none)))
      ∧ (m.good = false ∨ m.number = 0 ∨ 62 < m.number →
        exec (.markReceived m apart) s = .next { s with li := dropped }))
    ∧ (s.li.lineState = .leaving → exec (.markReceived m apart) s = .next { s with li := dropped })
    ∧ (s.li.lineState = .offline ∨ s.li.lineState = .mismatch ∨ s.li.lineState = .silenced →
        exec (.markReceived m apart) s = .next s)
    ∧ (s.li.lineState = .active ∨ s.li.lineState = .leaving → m.org = s.li.strapOrg → m.number = s.number →
        exec (.markReceived { m with own := true } apart) s = .next s))
  ∧ ∀ (s : State), s.li.lineState = .listening → s.li.queue = [] → Sizes s → 1 ≤ s.number → s.number ≤ 62 →
    (∀ (m : HeardMark) (apart : List DueKind), m.own = false → m.good = true → 1 ≤ m.number → m.number ≤ 62 →
      m.number ≠ s.number → m.org = s.li.strapOrg → 7 ≤ s.li.runCount → DueKind.runCount ∉ apart →
      ∃ t, exec (.markReceived m apart) s = .next t ∧ s.entersActive t s.li.markStart ∧ t.li.marker = false
        ∧ t.li.interval = none ∧ (t.peer m.number).present = true ∧ (t.peer m.number).age = 0)
    ∧ (Due.runCount ∈ s.owed → 8 ≤ s.li.runCount →
      ∃ t, exec .runCountComplete s = .next t ∧ s.entersActive t s.li.markStart ∧ t.li.marker = s.li.marker
        ∧ t.owed = s.owed.erase .runCount)
    ∧ (∀ start, s.li.driving = some (.mark start) →
      ∃ t, exec .markSent s = .next t ∧ s.entersActive t start ∧ t.li.marker = true
        ∧ t.li.interval = some (start + 1000) ∧ t.li.driving = none)

/-- A good mark whose organisation code differs sends the station from LISTENING or ACTIVE to MISMATCH with that code in LINE-STATE, even
when the mark bears its own number. -/
def Obligations.MismatchBeforeSilenced : Prop :=
  ∀ (s : State) (m : HeardMark) (apart : List DueKind),
    s.li.lineState = .listening ∨ s.li.lineState = .active → m.good = true → 1 ≤ m.number → m.number ≤ 62 →
    m.org ≠ s.li.strapOrg →
    ∃ t, exec (.markReceived m apart) s = .next t ∧ s.diesTo t .mismatch m.org

/-- The own number heard from elsewhere, or a read-back that differs, silences the station with the cause of R13: in LISTENING a good mark,
message of any kind or slot header (1); in ACTIVE a PRESENCE with another join stamp (2), or a mark, a message of any kind or a slot header
that read-back shows it did not send (3); in both states a read-back that differs while it drives (4). Of causes 2 and 3 together the first
is reported (log 7). -/
def Obligations.SilencedCauses : Prop :=
  ∀ (s : State),
    (s.li.lineState = .listening →
      (∀ m apart, m.good = true → m.own = false → m.number = s.number → 1 ≤ m.number → m.number ≤ 62 →
        m.org = s.li.strapOrg → ∃ t, exec (.markReceived m apart) s = .next t ∧ s.diesTo t .silenced 1)
      ∧ (∀ (env : Envelope) (m : Message), env.good = true → env.sender = s.number →
          ∃ t, exec (m.heard env) s = .next t ∧ s.diesTo t .silenced 1)
      ∧ ∀ l slot, l < lanesOf s.li.strapOrg → goodSlot true slot = true → slot.holder = s.number →
          ∃ t, exec (.laneSlotReceived l true false slot) s = .next t ∧ s.diesTo t .silenced 1)
    ∧ (s.li.lineState = .active →
      (∀ m apart, m.good = true → m.own = false → m.number = s.number → 1 ≤ m.number → m.number ≤ 62 →
        m.org = s.li.strapOrg → ∃ t, exec (.markReceived m apart) s = .next t ∧ s.diesTo t .silenced 3)
      ∧ (∀ env fresh stamp field p, env.good = true → env.sender = s.number →
        malformed (lanesOf s.li.strapOrg) env (.presence fresh stamp field p) = false →
        s.li.joinStamp ≠ some stamp →
        ∃ t, exec (.presenceReceived env fresh stamp field p) s = .next t ∧ s.diesTo t .silenced 2)
      ∧ (∀ (env : Envelope) (m : Message), env.good = true → env.own = false → env.sender = s.number →
        (∀ fresh stamp field p, m = .presence fresh stamp field p →
          s.li.joinStamp = some stamp ∨ malformed (lanesOf s.li.strapOrg) env m = true) →
        ∃ t, exec (m.heard env) s = .next t ∧ s.diesTo t .silenced 3)
      ∧ ∀ l slot, l < lanesOf s.li.strapOrg → goodSlot true slot = true → slot.holder = s.number →
          ∃ t, exec (.laneSlotReceived l true false slot) s = .next t ∧ s.diesTo t .silenced 3)
    ∧ (s.li.lineState = .listening ∨ s.li.lineState = .active → s.li.driving ≠ none →
        ∃ t, exec .readbackMismatch s = .next t ∧ s.diesTo t .silenced 4)

/-- Mark duty. A timer that expires while nothing is driven starts the own mark, at that time: the holdoff in LISTENING, ACTIVE and LEAVING,
the interval in ACTIVE and LEAVING with MARKER set. The mark sent sets MARKER and the interval, 1000 µs from its start; the mark lost
clears MARKER. Nothing else changes, and a stopped timer or another item driven makes each command empty (log 5). That the microsecond count
is at least that of the expiry is the time of log 1.

In LEAVING a read-back that differs is a lost resolution of the item driven: of the mark, of the message, or of the lane slot, taken as
lost to the own number (log 8). With nothing driven it is nothing. -/
def Obligations.MarkDutyAndReadback : Prop :=
  (∀ (s : State) (time start : Nat),
      (s.marks = true → s.li.holdoff = some time → s.li.driving = none →
        exec .holdoffExpiry s = .next { s with li := { s.li with
          micros := max s.li.micros time, driving := some (.mark (max s.li.micros time)), holdoff := none } })
      ∧ (s.li.holdoff = none ∨ s.li.driving ≠ none ∨ s.marks = false → exec .holdoffExpiry s = .next s)
      ∧ (s.li.lineState = .active ∨ s.li.lineState = .leaving → s.li.marker = true → s.li.interval = some time →
        s.li.driving = none →
        exec .markIntervalExpiry s = .next { s with li := { s.li with
          micros := max s.li.micros time, driving := some (.mark (max s.li.micros time)), interval := none } })
      ∧ (s.li.interval = none ∨ s.li.marker = false ∨ s.li.driving ≠ none → exec .markIntervalExpiry s = .next s)
      ∧ (s.li.driving = some (.mark start) → s.li.lineState ≠ .listening →
        exec .markSent s = .next { s with li := { s.li with
          marker := true, interval := some (start + 1000), driving := none } })
      ∧ (s.li.driving = some (.mark start) →
        exec .markLost s = .next { s with li := { s.li with marker := false, interval := none, driving := none } })
      ∧ (s.drivesMark = false → exec .markSent s = .next s ∧ exec .markLost s = .next s))
    ∧ (∀ (s : State), (s.li.driving = none → exec .readbackMismatch s = .next s)
      ∧ (s.li.lineState = .leaving →
        (∀ start, s.li.driving = some (.mark start) →
          exec .readbackMismatch s = .next { s with li := { s.li with marker := false, interval := none, driving := none } })
        ∧ (s.li.driving = some .message → exec .readbackMismatch s = exec .messageLost s)
        ∧ ∀ l slot, s.li.driving = some (.slot l slot) → exec .readbackMismatch s = exec (.slotHeaderLost s.number) s))

/-- MESSAGE_SLOT in ACTIVE or LEAVING locks the head of the queue and drives it from the time of the slot (log 1), provided the station has
sent nothing in this cycle, drives nothing and has nothing locked; else it does nothing. MESSAGE_LOST in ACTIVE leaves an unwithdrawn message
in its place, unlocked; a TALK-OPEN with a close waiting leaves the queue and frees its record.

MESSAGE_SENT in ACTIVE: the locked message leaves the queue and no other is offered in this cycle; for PRESENCE, ANSWER, FEED-NOTICE,
CALL-ACK, TALLY, CUE and a re-announce nothing else changes. A CALL sent counts down the unsent messages of its key; a TALK-MOVE gives every
OPEN record of its source the lane. A re-announce that a close waited for is followed by the TALK-CLOSE of its tag, sent or lost (log 29).

In LEAVING the outcome of the slot runs the end test: with no TALK-CLOSE and no other message left the station is in OFFLINE, with the input
runs kept (log 3); with one left it stays in LEAVING. A TALK-OPEN that was locked at the entry to LEAVING and is lost there frees its record (R10);
one that is sent is in the statement on talk messages. -/
def Obligations.MessageSlots : Prop :=
  (∀ (s : State) (i : Nat) (o : OutMsg) (rest : List OutMsg),
      (s.li.lineState = .active ∨ s.li.lineState = .leaving → s.li.queue = o :: rest → s.li.driving = none →
        s.li.sentThisCycle = false → (∀ x ∈ s.li.queue, x.locked = false) →
        exec (.messageSlot i) s = .next { s with li := { s.li with
          micros := max s.li.micros (s.li.markStart + (50 + 200 * i) / 25)
          queue := { o with locked := true } :: rest, driving := some .message } })
      ∧ (s.li.queue = [] ∨ s.li.sentThisCycle = true ∨ s.li.driving ≠ none ∨ (s.active = false ∧ s.leaving = false) →
        exec (.messageSlot i) s = .next s)
      ∧ (s.li.lineState = .active → s.li.driving = some .message → s.li.queue.filter OutMsg.locked = [o] →
        (o.drop = none →
          exec .messageLost s = .next { s with li := { s.li with
            queue := s.li.queue.map fun x => { x with locked := false }, driving := none } })
        ∧ ∀ m, o.msg = .talkOpen m → m.reannounce = false → o.drop = some .close → m.tag < 14 →
          ∃ t, exec .messageLost s = .next t ∧ t.path m.tag = none ∧ t.li.driving = none
            ∧ (∀ x ∈ t.li.queue, x.locked = false)
            ∧ ∀ g, g ≠ m.tag → t.path g = s.path g))
    ∧ (∀ (s : State) (o : OutMsg), s.li.lineState = .active → s.li.driving = some .message → s.li.queue.filter OutMsg.locked = [o] →
      let gone : State := { s with li := { s.li with
        queue := s.li.queue.eraseP OutMsg.locked, driving := none, sentThisCycle := true } }
      (o.msg.kindCode ∈ [0, 5, 6, 8, 9, 10] → exec .messageSent s = .next gone)
      ∧ (∀ m, o.msg = .talkOpen m → m.reannounce = true → o.drop = none → exec .messageSent s = .next gone)
      ∧ (∀ k kind ds r, o.msg = .call k kind ds → s.callOrigin k = some r →
          exec .messageSent s = .next { gone with tru := { s.tru with
            calls := s.tru.calls.set k (some ⟨if r.unsent ≤ 1 then .sent else .queued, r.unsent - 1⟩) } })
      ∧ (∀ n l, o.msg = .talkMove n l →
          ∃ t, exec .messageSent s = .next t ∧ t.li = gone.li ∧ s.changesOnly t [.li, .tru]
            ∧ ∀ g, t.path g = (s.path g).map fun p =>
                if p.state = .opened ∧ p.req.source = n then { p with lane := some l } else p)
      ∧ (∀ m p, o.msg = .talkOpen m → m.reannounce = true → o.drop = some .close → s.path m.tag = some p →
          p.state = .closing → p.closePending = true → s.li.queue.length ≤ 16 → m.tag < 14 → Sizes s →
          (∀ command ∈ [Instr.messageSent, .messageLost],
            ∃ t, exec command s = .next t ∧ s.changesOnly t [.li, .tru] ∧ t.li.driving = none
              ∧ t.li.queue = insertMsg (.talkClose p.req.source m.tag) (s.li.queue.eraseP OutMsg.locked)
              ∧ t.path m.tag = some { p with closePending := false } ∧ ∀ g, g ≠ m.tag → t.path g = s.path g)))
    ∧ ∀ (s : State) (o : OutMsg), s.li.lineState = .leaving → s.li.driving = some .message →
      s.li.queue.filter OutMsg.locked = [o] →
      (s.li.queue = [o] → isClose o.msg = true ∨ o.msg.kindCode ≠ 2 →
        exec .messageSent s = .next (s.wiped .leaving s.cp.response))
      ∧ (s.li.queue = [o] → o.drop = some .leaving → isClose o.msg = false → (∀ m, o.msg = .talkOpen m → m.reannounce = false) →
        exec .messageLost s = .next (s.wiped .leaving s.cp.response))
      ∧ (∀ m, o.msg = .talkOpen m → m.reannounce = false → o.drop = some .leaving → m.tag < 14 →
        (∃ x ∈ s.li.queue, x.locked = false ∧ isClose x.msg = true) →
        ∃ t, exec .messageLost s = .next t ∧ t.li.lineState = .leaving ∧ t.path m.tag = none ∧ ∀ g, g ≠ m.tag → t.path g = s.path g)
      ∧ (∀ command ∈ [Instr.messageSent, .messageLost], (∃ x ∈ s.li.queue, x.locked = false ∧ isClose x.msg = true) →
        ∃ t, exec command s = .next t ∧ t.li.lineState = .leaving ∧ t.li.driving = none
          ∧ ∀ x ∈ s.li.queue, x.locked = false → isClose x.msg = true → x ∈ t.li.queue)
      ∧ (isClose o.msg = true → o.drop = none →
        exec .messageLost s = .next { s with li := { s.li with
          queue := s.li.queue.map fun x => { x with locked := false }, driving := none } })

/-- MESSAGE_SENT for a TALK-OPEN in ACTIVE whose record is ISSUED, with no close waiting: the record is OPEN, an outstanding request entry
of age 0 is the newest, and the key of the tag turns from OPENING to OPEN, or to LATCHED with its latch flag set; for tags 12 and 13
the bridge's open-talk state turns to OPEN. With a close waiting (R63), and in LEAVING for a TALK-OPEN that was locked at its entry (R10, log 18), all
that happens too, and at once the record is CLOSING without a successor, and its TALK-CLOSE is in the queue; a key that was pressed again meanwhile
is moved by the report (log 14).

MESSAGE_SENT for a TALK-CLOSE in ACTIVE whose record is CLOSING: the outstanding entry of its tag and serial is marked closed early.
Without a successor the record is freed, and the need of S0 or S1 ends with its last record: the source is in phase NONE, a claim that is not
locked is withdrawn, a CLAIMING or MINE lane is FREE, and a WAITING source picks the lane that is given up (R38, R36). A successor takes the tag
in a new record. -/
def Obligations.TalkMessagesSent : Prop :=
  (∀ (s : State) (o : OutMsg) (m : TalkOpen) (p : Path), s.li.lineState = .active → Sizes s →
      s.li.driving = some .message → s.li.queue.filter OutMsg.locked = [o] →
      o.msg = .talkOpen m → m.reannounce = false → o.drop = none ∨ o.drop = some .laneLost →
      s.path m.tag = some p → p.state = .issued →
      ∃ t, exec .messageSent s = .next t ∧ s.changesOnly t [.li, .tru, .ku, .fb]
        ∧ t.li = { s.li with queue := s.li.queue.eraseP OutMsg.locked, driving := none, sentThisCycle := true }
        ∧ t.path m.tag = some { p with state := .opened } ∧ (∀ g, g ≠ m.tag → t.path g = s.path g)
        ∧ t.tru.outstanding = s.tru.outstanding ++
            [⟨m.tag, m.serial, p.req.source, p.req.dests, 0, false, [], List.replicate p.req.dests.length 0⟩]
        ∧ t.tru.serial = s.tru.serial
        ∧ (m.tag < 12 → t.fb = s.fb ∧ ((s.key m.tag).logical = .opening →
            t.key m.tag = { s.key m.tag with logical := if (s.key m.tag).latch then .latched else .opened })
            ∧ ((s.key m.tag).logical ≠ .opening → t.key m.tag = s.key m.tag))
        ∧ (12 ≤ m.tag → t.ku = s.ku ∧ ((s.chan (m.tag - 12)).openTalk = .opening →
            t.chan (m.tag - 12) = { s.chan (m.tag - 12) with openTalk := .opened })))
    ∧ (∀ (s : State) (o : OutMsg) (m : TalkOpen) (p : Path), Sizes s → s.li.queue.length ≤ 16 →
      s.li.lineState = .active ∧ o.drop = some .close ∨ s.li.lineState = .leaving ∧ o.drop = some .leaving →
      s.li.driving = some .message → s.li.queue.filter OutMsg.locked = [o] → o.msg = .talkOpen m → m.reannounce = false →
      s.path m.tag = some p → p.state = .issued →
      let rest := (s.li.queue.eraseP OutMsg.locked).filter fun x => !isReannounceOf m.tag x.msg
      ∃ t, exec .messageSent s = .next t ∧ s.changesOnly t [.li, .tru, .ku, .fb]
        ∧ t.li = { s.li with
            queue := insertMsg (.talkClose p.req.source m.tag) rest, driving := none, sentThisCycle := true }
        ∧ t.path m.tag = some { p with
            state := .closing, successor := none, reannouncePending := false, closePending := false }
        ∧ (∀ g, g ≠ m.tag → t.path g = s.path g)
        ∧ t.tru.outstanding = s.tru.outstanding ++
            [⟨m.tag, m.serial, p.req.source, p.req.dests, 0, false, [], List.replicate p.req.dests.length 0⟩]
        ∧ (m.tag < 12 → t.fb = s.fb ∧ t.key m.tag = if (s.key m.tag).logical = .opening
            then { s.key m.tag with logical := if (s.key m.tag).latch then .latched else .opened } else s.key m.tag)
        ∧ (12 ≤ m.tag → t.ku = s.ku ∧ ((s.chan (m.tag - 12)).openTalk = .opening →
            t.chan (m.tag - 12) = { s.chan (m.tag - 12) with openTalk := .opened })))
    ∧ (∀ (s : State) (o : OutMsg) (src g : Nat) (p : Path), s.li.lineState = .active → Sizes s →
      s.li.driving = some .message → s.li.queue.filter OutMsg.locked = [o] →
      o.msg = .talkClose src g → s.path g = some p → p.state = .closing →
      ∃ t, exec .messageSent s = .next t ∧ s.changesOnly t [.li, .plt, .tru, .cp] ∧ s.eventsOnly t
        ∧ t.li.sentThisCycle = true ∧ t.li.driving = none
        ∧ (p.successor = none →
            t.path g = none ∧ (∀ h, h ≠ g → t.path h = s.path h)
              ∧ t.tru.outstanding = s.tru.outstanding.map (fun x =>
                  if x.tag = g ∧ p.serial = some x.serial then { x with closedEarly := true } else x)
              ∧ (p.req.source ≤ 1 → (∀ h q, s.path h = some q → q.req.source = p.req.source → h = g) →
                  (t.source p.req.source).need = false
                    ∧ ((s.source p.req.source).need = true → s.needEnds t p.req.source))
              ∧ (1 < p.req.source ∨ (∃ h q, h ≠ g ∧ h < 14 ∧ s.path h = some q ∧ q.req.source = p.req.source) →
                  t.plt = s.plt ∧ t.cp = s.cp))
        ∧ (∀ r, p.successor = some r →
            ∃ q, t.path g = some q ∧ q.req = r ∧ (q.state = .preparing ∨ q.state = .issued) ∧ q.successor = none))

/-- MESSAGE_SENT for a LANE-CLAIM in ACTIVE whose source is PENDING on its lane: FREE, or HELD with block-seen clear by a higher number,
the lane is CLAIMING with count 0 and the source CLAIMING; else the claim has failed, the lane keeps its record and the source picks again:
PENDING on the lowest FREE lane that no other own source has picked, or WAITING with LANE-WAIT where there is none (R32, R35, R36).

CLAIM_WINDOW_END, left by an opening: the lane is MINE and its source has it. Without the moved flag the PREPARING records of S0–S3 may be
offered with it, in the order of their tags and while fewer than six requests are outstanding; a source with an OPEN record on another lane
has a TALK-MOVE offered, and one without has none; with the flag, which is cleared, one TALK-MOVE is offered, or the source is move pending
where all 16 places are filled. S4 carries no paths. -/
def Obligations.ClaimSentAndWindowCloses : Prop :=
  (∀ (s : State) (o : OutMsg) (l n : Nat), s.li.lineState = .active → Sizes s → l < lanesOf s.li.strapOrg → n < 5 →
    s.li.driving = some .message → s.li.queue.filter OutMsg.locked = [o] →
    o.msg = .laneClaim l n → o.drop = none ∨ o.drop = some .repick → (s.source n).phase = .pending l →
    ∃ t, exec .messageSent s = .next t ∧ s.changesOnly t [.li, .plt, .cp] ∧ s.eventsOnly t
      ∧ t.li.sentThisCycle = true ∧ (∀ k, k ≠ l → t.lane k = s.lane k) ∧ t.plt.peers = s.plt.peers
      ∧ (∀ k, k ≠ n → t.source k = s.source k)
      ∧ ((s.lane l = .free ∨ ∃ h src p age, s.lane l = .held h src p age false ∧ s.number < h) →
          t.lane l = .claiming n 0 ∧ t.source n = { s.source n with phase := .claiming l } ∧ t.cp = s.cp)
      ∧ ((∃ h src p age seen, s.lane l = .held h src p age seen ∧ (seen = true ∨ h ≤ s.number)) →
          t.lane l = s.lane l ∧ (t.source n).need = (s.source n).need ∧ (t.source n).moved = (s.source n).moved ∧ s.picks t n []))
  ∧ (∀ (s : State) (l n count : Nat), Sizes s → Due.claim l ∈ s.owed → s.li.lineState = .active →
    l < lanesOf s.li.strapOrg → n < 5 → s.lane l = .claiming n count → 2 ≤ count →
    ∃ t, exec (.claimWindowEnd l) s = .next t ∧ s.changesOnly t [.li, .plt, .tru, .owed] ∧ s.queueOnly t
      ∧ t.lane l = .mine n ∧ (∀ k, k ≠ l → t.lane k = s.lane k)
      ∧ t.source n = { s.source n with phase := .mine l, moved := false } ∧ (∀ k, k ≠ n → t.source k = s.source k)
      ∧ (n = 4 → t.tru = s.tru ∧ t.li = s.li)
      ∧ (n < 4 → (s.source n).moved = true → s.li.queue.length < 16 →
          (∃ o ∈ t.li.queue, o.msg = .talkMove n l) ∧ t.tru.movePending.getD n true = false)
      ∧ (n < 4 → (s.source n).moved = true → 16 ≤ s.li.queue.length →
          t.li = s.li ∧ t.tru.movePending.getD n false = true)
      ∧ (n < 4 → (s.source n).moved = false → (∃ g p, s.path g = some p ∧ p.state = .opened ∧ p.req.source = n ∧ p.lane ≠ some l) →
          s.li.queue.length < 16 → (∃ o ∈ t.li.queue, o.msg = .talkMove n l) ∧ t.tru.movePending.getD n true = false)
      ∧ (n < 4 → (s.source n).moved = false → (∀ g p, s.path g = some p → p.state = .opened → p.req.source ≠ n) →
          t.tru.movePending = s.tru.movePending ∧ (s.li.queue.filter fun o => isMoveOf n o.msg)
            = t.li.queue.filter fun o => isMoveOf n o.msg)
      ∧ ∀ g h p q, g < h → h < 14 → n < 4 → (s.source n).moved = false →
          (∀ k r, s.path k = some r → r.state = .opened → r.req.source ≠ n) →
          s.path g = some p → s.path h = some q → p.state = .preparing → q.state = .preparing →
          p.req.source = n → q.req.source = n → (∀ k r, s.path k = some r → r.state = .preparing → k = g ∨ k = h) →
          s.li.queue.length ≤ 10 →
          let first := openMessage g p s.tru.serial l false
          (s.tru.outstanding.length + s.issuedCount ≤ 4 →
            t.path g = some { p with state := .issued, serial := some s.tru.serial, lane := some l }
              ∧ t.path h = some { q with state := .issued, serial := some ((s.tru.serial + 1) % 256), lane := some l }
              ∧ t.tru.serial = ((s.tru.serial + 1) % 256 + 1) % 256
              ∧ t.li.queue = insertMsg (openMessage h q ((s.tru.serial + 1) % 256) l false) (insertMsg first s.li.queue))
          ∧ (s.tru.outstanding.length + s.issuedCount = 5 →
            t.path g = some { p with state := .issued, serial := some s.tru.serial, lane := some l } ∧ t.path h = some q
              ∧ t.tru.serial = (s.tru.serial + 1) % 256 ∧ t.li.queue = insertMsg first s.li.queue))

/-- A good PRESENCE of another station, *new* or not, in LISTENING or ACTIVE. From an ABSENT sender, from one whose stamp is unknown, or with the
stamp that is stored, it writes the sender's entry; an ABSENT sender becomes PRESENT with PEER-CHANGE in ACTIVE. Beyond that a *new* one
changes only what re-announcement does in ACTIVE, and nothing in LISTENING. With another stamp the sender has
restarted: besides, no lane stays HELD by it, no entry keeps a tag of it, and its call and on-air records are gone; in ACTIVE PEER-CHANGE is
raised first with ABSENT, before the events of the other units (log 30), and last with PRESENT.

A *new* PRESENCE of another station in ACTIVE, ABSENT or PRESENT before, re-announces: every OPEN record that has no re-announce pending has
its re-announce TALK-OPEN in the queue, or re-announce pending set where the queue does not admit it; then every destination of the tally
list, listed once, has its TALLY(ON) in the queue and refresh count 0, or keeps its count where 12 places are filled. -/
def Obligations.PresencesHeard : Prop :=
  (∀ (s : State) (env : Envelope) (fresh : Bool) (stamp : Nat) (field : Bool) (programme : Nat),
      s.li.lineState = .listening ∨ s.li.lineState = .active → Sizes s → env.good = true →
      malformed (lanesOf s.li.strapOrg) env (.presence fresh stamp field programme) = false → env.sender ≠ s.number →
      let old := s.peer env.sender
      let written : State := { s with plt := { s.plt with
        peers := s.plt.peers.modify (env.sender - 1) fun _ => ⟨true, 0, some stamp, field, programme⟩ } }
      let after := fun w t : State =>
        if fresh = true ∧ s.li.lineState = .active then w.changesOnly t [.li, .tru] ∧ w.queueOnly t else t = w
      (old.present = false → ∃ t, exec (.presenceReceived env fresh stamp field programme) s = .next t
        ∧ after (if s.li.lineState = .active then written.raise (.peerChange env.sender true (some stamp)) else written) t)
      ∧ (old.present = true → old.stamp = none ∨ old.stamp = some stamp →
        ∃ t, exec (.presenceReceived env fresh stamp field programme) s = .next t ∧ after written t)
      ∧ (∀ x, old.present = true → old.stamp = some x → x ≠ stamp →
        ∃ t, exec (.presenceReceived env fresh stamp field programme) s = .next t
          ∧ t.peer env.sender = ⟨true, 0, some stamp, field, programme⟩
          ∧ (∀ n, 1 ≤ n → n ≠ env.sender → t.peer n = s.peer n)
          ∧ (∀ l src p age seen, t.lane l ≠ .held env.sender src p age seen)
          ∧ (∀ i, i < 6 → (∀ e ∈ (t.feed i).entries, e.talker = env.sender → e.draining = true)
              ∧ (∀ r ∈ (t.feed i).calls, r.caller ≠ env.sender) ∧ (∀ r ∈ (t.feed i).onAir, r.origin ≠ env.sender))
          ∧ s.changesOnly t [.li, .plt, .tru, .cia, .mu, .cp] ∧ s.queueOnly t ∧ s.eventsOnly t
          ∧ (fresh = false ∨ s.li.lineState = .listening → t.tru = s.tru)
          ∧ (s.li.lineState = .listening → s.cia = Cia.rest → t.cp = s.cp)
          ∧ (s.li.lineState = .active → ∃ between,
              t.cp = s.told (.peerChange env.sender false none :: between ++ [.peerChange env.sender true (some stamp)]))))
    ∧ (∀ (s : State) (env : Envelope) (stamp : Nat) (field : Bool) (programme : Nat),
      s.li.lineState = .active → env.good = true → env.sender ≠ s.number →
      malformed (lanesOf s.li.strapOrg) env (.presence true stamp field programme) = false →
      ∃ t, exec (.presenceReceived env true stamp field programme) s = .next t
        ∧ s.changesOnly t [.li, .plt, .tru, .cia, .mu, .cp] ∧ s.queueOnly t
        ∧ ((s.peer env.sender).present = false ∨ (s.peer env.sender).stamp = none ∨ (s.peer env.sender).stamp = some stamp →
            t.cia = s.cia ∧ t.mu = s.mu)
        ∧ (∀ g p serial lane, g < 14 → s.path g = some p → p.state = .opened → p.serial = some serial →
            p.lane = some lane → p.reannouncePending = false →
            ((∃ o ∈ t.li.queue, o.msg = openMessage g p serial lane true) ∧ t.path g = some p)
              ∨ (t.path g = some { p with reannouncePending := true } ∧ 12 ≤ t.li.queue.length))
        ∧ (∀ g p, s.path g = some p → p.state ≠ .opened → t.path g = some p)
        ∧ t.tru.tallies.map TallyOrigin.dest = s.tru.tallies.map TallyOrigin.dest
        ∧ ((s.tru.tallies.map TallyOrigin.dest).Nodup → ∀ r ∈ s.tru.tallies,
            ((∃ o ∈ t.li.queue, o.msg = .tally r.dest true) ∧ { r with refresh := 0 } ∈ t.tru.tallies)
              ∨ (r ∈ t.tru.tallies ∧ 12 ≤ t.li.queue.length)))

/-- A good LANE-CLAIM of another station for lane `l` and source `src`, in LISTENING or ACTIVE, changes the record of the lane as the table of
R29 says, and the record of no other lane. The source of an own claim that fails picks again at once (R32, R35): PENDING on the lowest lane that
is FREE and that no other own source has picked, or WAITING with LANE-WAIT where there is none (R36). So does a source that has picked the lane
while it was FREE: its queued claim is withdrawn unsent, and a locked one waits for the outcome of its slot (R32). PEER-CHANGE of a sender that was
ABSENT comes before the events of the pick. A claim with the own number changes
nothing, nor does one that names a lane of L or above. -/
def Obligations.LaneClaimHeard : Prop :=
  ∀ (s : State) (env : Envelope) (l src : Nat), let who := env.sender
    let before := if (s.peer who).present = true then [] else [Event.peerChange who true none]
    s.li.lineState = .listening ∨ s.li.lineState = .active → Sizes s → env.good = true →
    (malformed (lanesOf s.li.strapOrg) env (.laneClaim l src) = false → who ≠ s.number →
      ∃ t, exec (.laneClaimReceived env l src) s = .next t ∧ s.changesOnly t [.li, .plt, .cp] ∧ s.queueOnly t
        ∧ (t.peer who).present = true ∧ (t.peer who).age = 0 ∧ (∀ k, k ≠ l → t.lane k = s.lane k)
        ∧ t.lane l = match s.lane l with
          | .free => .held who src 0 0 false
          | .held h old p age false =>
            if who < h then .held who src 0 0 false else if who = h then .held h src p 0 false else .held h old p age false
          | .held h old p age true => if who = h then .held h old p 0 true else .held h old p age true
          | .claiming n count => if who < s.number then .held who src 0 0 false else .claiming n count
          | .mine n => .mine n)
    ∧ (malformed (lanesOf s.li.strapOrg) env (.laneClaim l src) = false → who < s.number →
        s.li.lineState = .active →
        ∀ n count, s.lane l = .claiming n count → n < 5 → (s.source n).phase = .claiming l →
        ∃ t, exec (.laneClaimReceived env l src) s = .next t ∧ (∀ k, k ≠ n → t.source k = s.source k)
          ∧ (t.source n).need = (s.source n).need ∧ (t.source n).moved = (s.source n).moved
          ∧ s.picks t n before
          ∧ ((∃ k, k ≠ l ∧ s.pickable n k ∧ (t.source n).phase = .pending k ∧ t.cp = s.told before
                ∧ (s.li.queue.length < 16 → t.li.queue = insertMsg (.laneClaim k n) s.li.queue))
              ∨ ((t.source n).phase = .waiting ∧ t.li = s.li ∧ t.cp = s.told (before ++ [.laneWait n]))))
    ∧ (malformed (lanesOf s.li.strapOrg) env (.laneClaim l src) = false → who ≠ s.number → s.li.lineState = .active →
        s.lane l = .free → ∀ n, n < 5 → (s.source n).phase = .pending l →
        (∀ k, k < 5 → k ≠ n → (s.source k).phase ≠ .pending l) →
        ∃ t, exec (.laneClaimReceived env l src) s = .next t ∧ (∀ k, k ≠ n → t.source k = s.source k)
          ∧ (t.source n).need = (s.source n).need ∧ (t.source n).moved = (s.source n).moved ∧ s.losesPick t n l before)
    ∧ (who = s.number → env.own = true → s.li.lineState = .active → exec (.laneClaimReceived env l src) s = .next s)
    ∧ (lanesOf s.li.strapOrg ≤ l → who ≠ s.number → exec (.laneClaimReceived env l src) s = .next s)

/-- A good TALK-OPEN of a peer, answered by feed `i` alone, which holds no entry for the talker and source: a level below the effective
floor is refused; a CUT-IN feed pushes a level above its current level, a MIX feed that is not exclusive admits a level below 7 while
fewer than six are admitted, and the entry is heard and its talker the reply station; else an entry without memo is held by rank while fewer than
eight are: in a CUT-IN feed one at or below the current level, in a MIX feed one that finds six admitted or a level-7 entry. The ANSWER with the
feed's item stands in the queue. -/
def Obligations.TalkOpenHeard : Prop :=
  ∀ (s : State) (env : Envelope) (m : TalkOpen) (i d : Nat),
    s.li.lineState = .active → Sizes s → env.good = true → env.sender ≠ s.number →
    malformed (lanesOf s.li.strapOrg) env (.talkOpen m) = false → i < 6 →
    s.matched i m.dests = some d → (∀ j, j < 6 → j ≠ i → s.matched j m.dests = none) →
    (s.feed i).find env.sender m.source = none → (s.feed i).arrival < 65535 → s.li.queue.length < 15 →
    let f := s.feed i
    let e : Entry := ⟨env.sender, m.source, [⟨m.tag, m.level, d, m.memo⟩], m.level, m.lane, f.arrival, 0, [], none, none⟩
    let low := m.level < s.floor i
    let mix := mixingFeed (s.feedCfg i) = true
    ∃ t, exec (.talkOpenReceived env m) s = .next t ∧ s.changesOnly t [.li, .plt, .cia, .mu, .cp] ∧ s.queueOnly t
      ∧ s.eventsOnly t ∧ (∀ j, j ≠ i → t.feed j = s.feed j)
      ∧ (low → t.feed i = f
          ∧ ∃ o ∈ t.li.queue, o.msg = .answer env.sender m.tag m.serial [⟨i, d, 2, 4⟩])
      ∧ (¬low → ¬mix → f.stack = [] ∨ f.currentLevel < m.level →
          t.feed i = { f with stack := f.stack ++ [e], arrival := f.arrival + 1, reply := some env.sender }
            ∧ ∃ o ∈ t.li.queue, o.msg = .answer env.sender m.tag m.serial [⟨i, d, 0, 0⟩])
      ∧ (¬low → ¬mix → f.stack ≠ [] → m.level ≤ f.currentLevel → f.deferred.length < 8 → m.memo = false →
          t.feed i = { f with deferred := insertByRank e f.deferred, arrival := f.arrival + 1 }
            ∧ ∃ o ∈ t.li.queue, o.msg = .answer env.sender m.tag m.serial [⟨i, d, 1, 0⟩])
      ∧ (¬low → mix → m.level < 7 → f.exclusive = false → f.admitted.length < 6 →
          t.feed i = { f with
              admitted := insertByArrival e f.admitted, arrival := f.arrival + 1, reply := some env.sender }
            ∧ ∃ o ∈ t.li.queue, o.msg = .answer env.sender m.tag m.serial [⟨i, d, 0, 0⟩])
      ∧ (¬low → mix → f.exclusive = true ∨ m.level < 7 ∧ 6 ≤ f.admitted.length → f.deferred.length < 8 → m.memo = false →
          t.feed i = { f with deferred := insertByRank e f.deferred, arrival := f.arrival + 1 }
            ∧ ∃ o ∈ t.li.queue, o.msg = .answer env.sender m.tag m.serial [⟨i, d, 1, 0⟩])

/-- A good TALK-OPEN where its feed has more to say. An entry of the talker and source that is there takes the tag (R85): a re-announce of a tag
it has leaves it, of a HELD one that wants memo and has no chain too (log 15), a fifth tag is refused, another tag of no higher level leaves its
place, and one that raises or lowers its level moves it (R95–R97). That an entry which is pushed or admitted has defer age 0 is the choice of log
28. An entry that a TALK-OPEN sets back is reported HELD by the ANSWER, and no FEED-NOTICE goes to its talker for it (R101). A new entry of level
7 silences a MIX feed, and waits where another does (R87). Eight held entries refuse one that ranks below them, and lose their lowest to one that
does not (R88); a refused one takes no arrival number (log 17). A head of level 7
leaves the deferred list before the entry that falls from 7 is set back, so that with eight held none is evicted: the choice of log 32. A held entry that wants memo binds the lowest IDLE channel, or is told of by
MEMO-STATE (R89, R112). The own talk passes over its excluded source's feed (R84). Of several answering feeds, each has its item in the one
ANSWER, in their order. -/
def Obligations.TalkOpenElsewhere : Prop :=
  (∀ (s : State) (env : Envelope) (m : TalkOpen) (i d : Nat),
    s.li.lineState = .active → Sizes s → EntryLaw s → ArbiterLaw s → MemoLaw s → env.good = true → env.sender ≠ s.number →
    malformed (lanesOf s.li.strapOrg) env (.talkOpen m) = false → i < 6 →
    s.matched i m.dests = some d → (∀ j, j < 6 → j ≠ i → s.matched j m.dests = none) → s.li.queue.length < 13 →
    let f := s.feed i
    let mix := mixingFeed (s.feedCfg i)
    let notMine := fun x : Entry => !(x.talker == env.sender && x.source == m.source)
    ∃ t, exec (.talkOpenReceived env m) s = .next t ∧ s.changesOnly t [.li, .plt, .cia, .mu, .cp] ∧ s.queueOnly t
      ∧ s.eventsOnly t ∧ (∀ j, j ≠ i → t.feed j = s.feed j)
      ∧ (∀ o ∈ t.li.queue, ∀ r, o.msg = .feedNotice i env.sender m.source 1 r → o ∈ s.li.queue)
      ∧ (∀ e, f.find env.sender m.source = some e →
        let has := e.tags.any fun x => x.tag == m.tag
        let one : EntryTag := ⟨m.tag, m.level, d, m.memo⟩
        let tags := if has then e.tags.map fun x => if x.tag == m.tag then one else x else e.tags ++ [one]
        let level := tags.foldl (fun top x => max top x.level) 0
        let new := { e with tags := tags, lane := m.lane, level := level }
        let write := fun x : Entry => if x.talker = env.sender ∧ x.source = m.source then new else x
        let answer := fun (state reason : Nat) => ∃ o ∈ t.li.queue, o.msg = .answer env.sender m.tag m.serial [⟨i, d, state, reason⟩]
        let held := e ∈ f.deferred
        let keep := m.memo = false ∨ e.chain ≠ []
        let live := ¬(has = true ∧ m.reannounce = true) ∧ (has = true ∨ e.tags.length < 4) ∧ s.floor i ≤ level
        (has = true → m.reannounce = true → t.feed i = f ∧ answer (if e ∈ f.deferred then 1 else 0) 0)
        ∧ (has = false → 4 ≤ e.tags.length → t.feed i = f ∧ answer 2 5)
        ∧ (¬(has = true ∧ m.reannounce = true) → (has = true ∨ e.tags.length < 4) → level < s.floor i →
            (t.feed i).find env.sender m.source = none ∧ answer 3 4)
        ∧ (live → level = e.level → (held → keep) →
            t.feed i = { f with
              stack := f.stack.map write, admitted := f.admitted.map write, deferred := f.deferred.map write }
              ∧ answer (if e ∈ f.deferred then 1 else 0) 0)
        ∧ (live → e.level < level → ∀ lower, f.stack = lower ++ [e] → t.feed i = { f with stack := lower ++ [new] } ∧ answer 0 0)
        ∧ (live → level < e.level → ∀ lower, f.stack = lower ++ [e] → (∀ b ∈ lower.getLast?, b.level < level) →
            ((∀ h ∈ f.deferred.head?, h.level ≤ level) → t.feed i = { f with stack := lower ++ [new] } ∧ answer 0 0)
            ∧ ∀ h rest, f.deferred = h :: rest → level < h.level →
              t.feed i = { f with
                stack := lower ++ [new, { h with deferAge := 0 }], deferred := rest, reply := some h.talker } ∧ answer 0 0
                ∧ (h.tags ≠ [] → ∃ o ∈ t.li.queue, o.msg = .feedNotice i h.talker h.source 0 1))
        ∧ (live → level < e.level → new.wantsMemo = false ∨ e.chain ≠ [] → f.deferred.length < 8 →
            (∀ lower b, f.stack = lower ++ [b, e] → level ≤ b.level → (∀ h ∈ f.deferred, h.level ≤ b.level) →
              t.feed i = { f with
                stack := lower ++ [b], deferred := insertByRank { new with deferAge := 0 } f.deferred, reply := some b.talker }
                ∧ answer 1 0)
            ∧ ∀ lower b upper, upper ≠ [] → f.stack = lower ++ b :: e :: upper → level ≤ b.level →
              t.feed i = { f with
                stack := lower ++ b :: upper, deferred := insertByRank { new with deferAge := 0 } f.deferred } ∧ answer 1 0)
        ∧ (live → level < e.level → ∀ lower upper, upper ≠ [] → f.stack = lower ++ e :: upper →
            (∀ b ∈ lower.getLast?, b.level < level) → t.feed i = { f with stack := lower ++ new :: upper } ∧ answer 0 0)
        ∧ (live → e.level < level → ∀ lower upper, upper ≠ [] → f.stack = lower ++ e :: upper →
            (f.currentLevel < level →
              t.feed i = { f with stack := lower ++ upper ++ [{ new with deferAge := 0 }], reply := some env.sender } ∧ answer 0 0)
            ∧ (level ≤ f.currentLevel → f.deferred.length < 8 → new.wantsMemo = false ∨ e.chain ≠ [] →
              t.feed i = { f with stack := lower ++ upper, deferred := insertByRank { new with deferAge := 0 } f.deferred }
                ∧ answer 1 0))
        ∧ (live → held → mix = false → f.currentLevel < level →
            t.feed i = { f with
              stack := f.stack ++ [{ new with deferAge := 0 }], deferred := f.deferred.filter notMine, reply := some env.sender }
              ∧ answer 0 0)
        ∧ (live → held → level ≠ e.level → keep → (mix = false → level ≤ f.currentLevel) →
            (mix = true → level = 7 → f.exclusive = true) →
            t.feed i = { f with deferred := insertByRank new (f.deferred.filter notMine) } ∧ answer 1 0)
        ∧ (live → e ∈ f.admitted → e.level ≠ 7 → level = 7 →
            (f.exclusive = false →
              t.feed i = { f with admitted := f.admitted.map write } ∧ (t.feed i).exclusive = true ∧ answer 0 0)
            ∧ (f.exclusive = true → f.deferred.length < 8 → new.wantsMemo = false ∨ e.chain ≠ [] → answer 1 0))
        ∧ (live → e ∈ f.admitted → e.level = 7 → level < 7 → ∀ h rest, f.deferred = h :: rest → h.level = 7 → f.admitted.length = 6 →
            (∀ x ∈ f.admitted, notMine x = true → x.above new = true) → new.wantsMemo = false ∨ e.chain ≠ [] →
            t.feed i = { f with
              admitted := insertByArrival { h with deferAge := 0 } (f.admitted.filter notMine)
              deferred := insertByRank { new with deferAge := 0 } rest, reply := some h.talker } ∧ answer 1 0))
      ∧ (f.find env.sender m.source = none → s.floor i ≤ m.level → f.arrival < 65535 →
        let e : Entry := ⟨env.sender, m.source, [⟨m.tag, m.level, d, m.memo⟩], m.level, m.lane, f.arrival, 0, [], none, none⟩
        let answer := fun (state reason : Nat) => ∃ o ∈ t.li.queue, o.msg = .answer env.sender m.tag m.serial [⟨i, d, state, reason⟩]
        let waits := if mix then (m.level = 7 ∧ f.exclusive = true) ∨ m.level < 7 ∧ (f.exclusive = true ∨ f.admitted.length = 6)
          else f.stack ≠ [] ∧ m.level ≤ f.currentLevel
        (mix = true → m.level = 7 → f.exclusive = false → f.admitted.length < 6 →
            t.feed i = { f with
              admitted := insertByArrival e f.admitted, arrival := f.arrival + 1, reply := some env.sender } ∧ answer 0 0)
        ∧ (mix = true → m.level = 7 → f.exclusive = false → f.admitted.length = 6 →
            ∀ low, low ∈ f.admitted → (∀ x ∈ f.admitted, x = low ∨ x.above low = true) → f.deferred.length < 8 →
            low.wantsMemo = false ∨ low.chain ≠ [] →
            t.feed i = { f with
              admitted := insertByArrival e (f.admitted.filter fun x => !(x.talker == low.talker && x.source == low.source))
              deferred := insertByRank { low with deferAge := 0 } f.deferred
              arrival := f.arrival + 1, reply := some env.sender }
              ∧ answer 0 0 ∧ (low.tags ≠ [] → ∃ o ∈ t.li.queue, o.msg = .feedNotice i low.talker low.source 1 2))
        ∧ (waits → f.deferred.length = 8 → ∀ out, f.deferred.getLast? = some out →
            (m.level ≤ out.level → t.feed i = f ∧ answer 2 5)
            ∧ (out.level < m.level → m.memo = false →
              t.feed i = { f with deferred := (insertByRank e f.deferred).dropLast, arrival := f.arrival + 1 } ∧ answer 1 0
                ∧ (out.tags ≠ [] → ∃ o ∈ t.li.queue, o.msg = .feedNotice i out.talker out.source 3 5)))
        ∧ (waits → f.deferred.length < 8 → m.memo = true →
            (∀ c, c < 4 → (s.channel c).state = .idle → (∀ b, b < c → (s.channel b).state ≠ .idle) →
              t.feed i = { f with deferred := insertByRank { e with chain := [c] } f.deferred, arrival := f.arrival + 1 }
                ∧ t.channel c = ⟨.capture, some ⟨i, env.sender, m.source⟩, [], 0, false⟩ ∧ t.cp.events.length ≤ s.cp.events.length + 1
                ∧ answer 1 0)
            ∧ ((∀ c, c < 4 → (s.channel c).state ≠ .idle) → (s.peer env.sender).present = true →
              t.feed i = { f with deferred := insertByRank e f.deferred, arrival := f.arrival + 1 }
                ∧ t.cp = s.told [.memoState i env.sender m.source .none] ∧ answer 1 0))))
  ∧ (∀ (s : State) (env : Envelope) (m : TalkOpen) (i : Nat),
    s.li.lineState = .active → env.good = true → env.own = true → env.sender = s.number →
    malformed (lanesOf s.li.strapOrg) env (.talkOpen m) = false → (i = 4 ∧ m.source = 2 ∨ i = 5 ∧ m.source = 3) →
    (∀ j, j < 6 → j ≠ i → s.matched j m.dests = none) → exec (.talkOpenReceived env m) s = .next s)
  ∧ ∀ (s : State) (env : Envelope) (m : TalkOpen),
    s.li.lineState = .active → Sizes s → env.good = true → env.sender ≠ s.number →
    malformed (lanesOf s.li.strapOrg) env (.talkOpen m) = false →
    ∃ t items, exec (.talkOpenReceived env m) s = .next t
      ∧ items.map (fun w : WireItem => (w.feed, some w.dest))
          = ((List.range 6).filter fun i => (s.matched i m.dests).isSome).map (fun i => (i, s.matched i m.dests))
      ∧ (items ≠ [] → (∃ o ∈ t.li.queue, o.msg = .answer env.sender m.tag m.serial items) ∨ 16 ≤ t.li.queue.length)
      ∧ ∀ i, s.matched i m.dests = none → t.feed i = s.feed i

/-- A good TALK-MOVE of a PRESENT peer writes its lane into every entry of that talker and source, wherever it stands, and changes nothing
else.

A good TALK-CLOSE of a PRESENT peer, at each feed: one without an entry of the talker and source with that tag does not act. An entry
that loses its last tag leaves the feed when it has no memo chain or one that holds no block, whose channels are IDLE again, and drains, keeping its place, when it holds one. An entry
that keeps tags of its level keeps its place with the tag gone. -/
def Obligations.TalkMoveAndCloseHeard : Prop :=
  (∀ (s : State) (env : Envelope) (src lane : Nat), s.li.lineState = .active → Sizes s → env.good = true →
      malformed (lanesOf s.li.strapOrg) env (.talkMove src lane) = false → env.sender ≠ s.number →
      (s.peer env.sender).present = true →
      let move := fun e : Entry => if e.talker = env.sender ∧ e.source = src then { e with lane := lane } else e
      ∃ t, exec (.talkMoveReceived env src lane) s = .next t ∧ s.changesOnly t [.plt, .cia]
        ∧ t.plt = { s.plt with peers := s.plt.peers.modify (env.sender - 1) fun p => { p with age := 0 } }
        ∧ ∀ i, i < 6 → let f := s.feed i
            t.feed i = { f with
              stack := f.stack.map move, admitted := f.admitted.map move, deferred := f.deferred.map move })
    ∧ (∀ (s : State) (env : Envelope) (src tag : Nat), s.li.lineState = .active → Sizes s → EntryLaw s → env.good = true →
      malformed (lanesOf s.li.strapOrg) env (.talkClose src tag) = false → env.sender ≠ s.number →
      (s.peer env.sender).present = true →
      ∃ t, exec (.talkCloseReceived env src tag) s = .next t ∧ s.changesOnly t [.li, .plt, .cia, .mu, .cp]
        ∧ s.queueOnly t ∧ s.eventsOnly t
        ∧ (∀ i, i < 6 → (∀ e ∈ (s.feed i).entries, e.talker = env.sender → e.source = src →
              ∀ x ∈ e.tags, x.tag ≠ tag) → t.feed i = s.feed i)
        ∧ (∀ i e, i < 6 → (s.feed i).find env.sender src = some e → (∃ x ∈ e.tags, x.tag = tag) →
            ((∀ x ∈ e.tags, x.tag = tag) → (∀ c ∈ e.chain, (s.channel c).blocks = []) →
                (t.feed i).find env.sender src = none
                  ∧ (MemoLaw s → (∀ j, j < 6 → j ≠ i → (s.feed j).find env.sender src = none) →
                      mixingFeed (s.feedCfg i) = false ∨ (s.feed i).deferred = [] →
                      ∀ c ∈ e.chain, t.channel c = ⟨.idle, none, [], 0, false⟩))
            ∧ ((∀ x ∈ e.tags, x.tag = tag) → (∃ c ∈ e.chain, (s.channel c).blocks ≠ [])
                → (∀ j, j < i → (s.feed j).find env.sender src = none) →
                (t.feed i).find env.sender src = some { e with tags := [] }
                  ∧ (t.feed i).place env.sender src = (s.feed i).place env.sender src)
            ∧ ((∃ x ∈ e.tags, x.tag ≠ tag) →
                (e.tags.filter fun x => x.tag != tag).foldl (fun m x => max m x.level) 0 = e.level →
                (t.feed i).find env.sender src = some { e with tags := e.tags.filter fun x => x.tag != tag }
                  ∧ (t.feed i).place env.sender src = (s.feed i).place env.sender src)))

/-- A good TALK-CLOSE of a PRESENT peer for a tag of an entry that keeps others, of a lower level, at the one feed that has an entry for the
talker and source. Below the effective floor the entry is removed, and told REMOVED with FLOOR. A top that stays above the entry beneath it
keeps its place, and a held entry that ranks above its new level is pushed over it with PROMOTED; one that does not is set back HELD, told
SET-BACK, and the entry beneath is top and its talker the reply station. A suspended entry keeps its place or is set back by the same test.
A held entry is placed by its new rank. An admitted one keeps its place; one that falls from 7 ends the exclusive state, and the refill admits
a held entry into a free place. That an entry which is pushed or admitted has defer age 0 is the choice of log 28. -/
def Obligations.LevelChanges : Prop :=
  ∀ (s : State) (env : Envelope) (src tag i : Nat) (e : Entry),
    s.li.lineState = .active → Sizes s → EntryLaw s → ArbiterLaw s → env.good = true → env.sender ≠ s.number →
    malformed (lanesOf s.li.strapOrg) env (.talkClose src tag) = false → (s.peer env.sender).present = true →
    i < 6 → (∀ j, j < 6 → j ≠ i → (s.feed j).find env.sender src = none) → (s.feed i).find env.sender src = some e →
    (∃ x ∈ e.tags, x.tag = tag) → s.li.queue.length < 15 →
    let f := s.feed i
    let tags := e.tags.filter fun x => x.tag != tag
    let level := tags.foldl (fun top x => max top x.level) 0
    let new := { e with tags := tags, level := level }
    let back := { new with deferAge := 0 }
    let notMine := fun x : Entry => !(x.talker == env.sender && x.source == src)
    let write := fun x : Entry => if x.talker = env.sender ∧ x.source = src then new else x
    tags ≠ [] → level < e.level → new.wantsMemo = false ∨ e.chain ≠ [] →
    ∃ t, exec (.talkCloseReceived env src tag) s = .next t ∧ s.changesOnly t [.li, .plt, .cia, .mu, .cp] ∧ s.queueOnly t
      ∧ s.eventsOnly t ∧ (∀ j, j ≠ i → t.feed j = s.feed j)
      ∧ (level < s.floor i → (t.feed i).find env.sender src = none
          ∧ ∃ o ∈ t.li.queue, o.msg = .feedNotice i env.sender src 3 4)
      ∧ (s.floor i ≤ level →
        let setBack := ∃ o ∈ t.li.queue, o.msg = .feedNotice i env.sender src 1 2
        (∀ lower, f.stack = lower ++ [e] → (∀ b ∈ lower.getLast?, b.level < level) →
          ((∀ h ∈ f.deferred.head?, h.level ≤ level) → t.feed i = { f with stack := lower ++ [new] } ∧ t.li = s.li)
          ∧ ∀ h rest, f.deferred = h :: rest → level < h.level →
            t.feed i = { f with
              stack := lower ++ [new, { h with deferAge := 0 }], deferred := rest, reply := some h.talker }
              ∧ (h.tags ≠ [] → t.li.queue = insertMsg (.feedNotice i h.talker h.source 0 1) s.li.queue))
        ∧ (∀ lower b, f.stack = lower ++ [b, e] → level ≤ b.level → (∀ h ∈ f.deferred, h.level ≤ b.level) → f.deferred.length < 8 →
          t.feed i = { f with
            stack := lower ++ [b], deferred := insertByRank back f.deferred, reply := some b.talker } ∧ setBack)
        ∧ (∀ lower upper, upper ≠ [] → f.stack = lower ++ e :: upper → (∀ b ∈ lower.getLast?, b.level < level) →
          t.feed i = { f with stack := lower ++ new :: upper } ∧ t.li = s.li)
        ∧ (∀ lower b upper, upper ≠ [] → f.stack = lower ++ b :: e :: upper → level ≤ b.level → f.deferred.length < 8 →
          t.feed i = { f with stack := lower ++ b :: upper, deferred := insertByRank back f.deferred } ∧ setBack)
        ∧ (e ∈ f.deferred → t.feed i = { f with deferred := insertByRank new (f.deferred.filter notMine) } ∧ t.li = s.li)
        ∧ (e ∈ f.admitted → e.level < 7 ∨ f.deferred = [] →
          t.feed i = { f with admitted := f.admitted.map write } ∧ t.li = s.li)
        ∧ (∀ h, e ∈ f.admitted → e.level = 7 → f.deferred = [h] → h.level < 7 → f.admitted.length < 6 →
          t.feed i = { f with
            admitted := insertByArrival { h with deferAge := 0 } (f.admitted.map write), deferred := [], reply := some h.talker }
            ∧ (h.tags ≠ [] → t.li.queue = insertMsg (.feedNotice i h.talker h.source 0 1) s.li.queue)))

/-- An item of an ANSWER to the own TALK-OPEN is applied to the OPEN record of its tag and serial: a new item is stored while fewer than 16
are, and counted as overflow beyond; outside the answer window a change raises PATH-CHANGE, inside it nothing is raised. An item of the listener
and feed of a stored one replaces it, and is a change where the state or the reason differs. The outstanding request entry of the tag and serial
takes the item in the same way, whatever the record. The items of one ANSWER are applied one after the other, in their order (log 31). An ANSWER
that names another talker refreshes its sender and goes nowhere else. -/
def Obligations.AnswerHeard : Prop :=
  (∀ (s : State) (env : Envelope) (talker g serial : Nat) (w : WireItem) (p : Path),
    s.li.lineState = .active → env.good = true → env.sender ≠ s.number → (s.peer env.sender).present = true →
    malformed (lanesOf s.li.strapOrg) env (.answer talker g serial [w]) = false →
    let item : Item := ⟨env.sender, w.feed, w.dest, ItemState.ofCode w.state, Reason.ofCode w.reason⟩
    let refreshed := { s.plt with peers := s.plt.peers.modify (env.sender - 1) fun q => { q with age := 0 } }
    (talker ≠ s.number →
      exec (.answerReceived env talker g serial [w]) s = .next { s with plt := refreshed })
    ∧ (talker = s.number → s.path g = some p → p.state = .opened → p.serial = some serial → w.dest ∈ p.req.dests →
        (∀ j ∈ p.answers, j.listener ≠ env.sender ∨ j.feed ≠ w.feed) →
        ∃ t, exec (.answerReceived env talker g serial [w]) s = .next t ∧ s.changesOnly t [.plt, .tru, .cp]
          ∧ t.plt = refreshed ∧ (∀ h, h ≠ g → t.path h = s.path h)
          ∧ t.tru.outstanding.length = s.tru.outstanding.length
          ∧ (p.answers.length < 16 →
              t.path g = some { p with answers := p.answers ++ [item] }
                ∧ t.cp = if s.inWindow g serial = true then s.cp
                    else s.told [.pathChange g env.sender w.feed w.dest item.state item.reason])
          ∧ (16 ≤ p.answers.length →
              t.path g = some { p with overflow := bumpOverflow p.req.dests p.overflow w.dest } ∧ t.cp = s.cp))
    ∧ (talker = s.number → s.path g = some p → p.state = .opened → p.serial = some serial → w.dest ∈ p.req.dests →
        ∀ j ∈ p.answers, p.answers.find? (fun x => x.listener == env.sender && x.feed == w.feed) = some j →
        ∃ t, exec (.answerReceived env talker g serial [w]) s = .next t ∧ s.changesOnly t [.plt, .tru, .cp]
          ∧ (∀ h, h ≠ g → t.path h = s.path h)
          ∧ t.path g = some { p with
              answers := p.answers.map fun x => if x.listener = env.sender ∧ x.feed = w.feed then item else x }
          ∧ t.cp = if s.inWindow g serial = true ∨ j.state = item.state ∧ j.reason = item.reason then s.cp
              else s.told [.pathChange g env.sender w.feed w.dest item.state item.reason])
    ∧ (talker = s.number →
        let stored := fun l : List Item => l.any fun x => x.listener == env.sender && x.feed == w.feed
        ∃ t, exec (.answerReceived env talker g serial [w]) s = .next t ∧ t.plt = refreshed
          ∧ t.tru.outstanding = s.tru.outstanding.map fun o =>
              if o.tag = g ∧ o.serial = serial ∧ w.dest ∈ o.dests then
                (if stored o.answers = true then
                  { o with answers := o.answers.map fun x => if x.listener = env.sender ∧ x.feed = w.feed then item else x }
                else if o.answers.length < 16 then { o with answers := o.answers ++ [item] }
                else { o with overflow := bumpOverflow o.dests o.overflow w.dest })
              else o))
  ∧ ∀ (s : State) (env : Envelope) (talker g serial : Nat) (w : WireItem) (rest : List WireItem),
    s.li.lineState = .active → env.good = true → env.sender ≠ s.number → (s.peer env.sender).present = true →
    malformed (lanesOf s.li.strapOrg) env (.answer talker g serial (w :: rest)) = false → rest ≠ [] →
    let of := fun items => { env with bodyLength := (Message.answer talker g serial items).bodyLength }
    ∃ t u, exec (.answerReceived env talker g serial (w :: rest)) s = .next u
      ∧ exec (.answerReceived (of [w]) talker g serial [w]) s = .next t
      ∧ exec (.answerReceived (of rest) talker g serial rest) t = .next u

/-- A FEED-NOTICE that names this station as talker writes the state and reason of the items that its listener and feed have in the OPEN
records of the source, and of those in the outstanding entries of the same tag and serial. Outside the window each item that changes raises
PATH-CHANGE with its destination and its new state and reason, from tag 0 to 13 (log 31); no other event is raised. With no such item, or for another
talker, it goes nowhere but to the sender's entry. -/
def Obligations.FeedNoticeHeard : Prop :=
  ∀ (s : State) (env : Envelope) (feed talker src state reason : Nat),
    s.li.lineState = .active → env.good = true → env.sender ≠ s.number → (s.peer env.sender).present = true →
    malformed (lanesOf s.li.strapOrg) env (.feedNotice feed talker src state reason) = false →
    let refreshed := { s.plt with peers := s.plt.peers.modify (env.sender - 1) fun q => { q with age := 0 } }
    let newState := ItemState.ofCode state
    let newReason := Reason.ofCode reason
    let same := fun j : Item => j.listener == env.sender && j.feed == feed
    let write := fun j : Item => if same j then { j with state := newState, reason := newReason } else j
    let change := fun g : Nat =>
      match s.path g with
      | some p =>
        if p.state = .opened ∧ p.req.source = src ∧ (∀ n ∈ p.serial, s.inWindow g n = false) then
          match p.answers.find? same with
          | some j =>
            if j.state ≠ newState ∨ j.reason ≠ newReason then
              some (Event.pathChange g env.sender feed j.dest newState newReason)
            else none
          | none => none
        else none
      | none => none
    (talker ≠ s.number → exec (.feedNoticeReceived env feed talker src state reason) s = .next { s with plt := refreshed })
    ∧ (talker = s.number → s.tru.paths.length = 14 → (∀ g p, s.path g = some p → p.state = .opened → p.serial ≠ none) →
        ∃ t, exec (.feedNoticeReceived env feed talker src state reason) s = .next t
          ∧ s.changesOnly t [.plt, .tru, .cp] ∧ t.plt = refreshed
          ∧ t.cp = s.told ((List.range 14).filterMap change)
          ∧ (∀ g p j, s.path g = some p → p.state = .opened → p.req.source = src → p.answers.find? same = some j →
              (∀ n ∈ p.serial, s.inWindow g n = false) → j.state ≠ newState ∨ j.reason ≠ newReason →
              Event.pathChange g env.sender feed j.dest newState newReason ∈ (List.range 14).filterMap change)
          ∧ (∀ g p, g < 14 → s.path g = some p →
              t.path g = some (if p.state = .opened ∧ p.req.source = src then { p with answers := p.answers.map write }
                else p))
          ∧ t.tru.outstanding = s.tru.outstanding.map (fun o =>
              if (s.path o.tag).any fun p => p.state == .opened && p.req.source == src && p.serial == some o.serial
                  && p.answers.any same
                then { o with answers := o.answers.map write } else o)
          ∧ ((∀ g p, s.path g = some p → ∀ j ∈ p.answers, j.listener = env.sender → j.feed ≠ feed) →
              exec (.feedNoticeReceived env feed talker src state reason) s = .next { s with plt := refreshed }))

/-- A good CALL of a PRESENT peer, at each feed that answers it: its record stands newest in the call list with age 0, in place of an older one
of the caller and key, the oldest of four making room; CALL-IN is raised and the tone slot asked for CALL. A feed that does not answer is
unchanged. Several feeds that answer do so each for itself, and their events come in the order F0 to F5 (R57). -/
def Obligations.CallHeard : Prop :=
  (∀ (s : State) (env : Envelope) (key kind : Nat) (dests : List Nat) (i d : Nat),
    s.li.lineState = .active → Sizes s → env.good = true → env.sender ≠ s.number →
    (s.peer env.sender).present = true → malformed (lanesOf s.li.strapOrg) env (.call key kind dests) = false → i < 6 →
    s.matched i dests = some d → (∀ j, j < 6 → j ≠ i → s.matched j dests = none) →
    let f := s.feed i
    let new : CallRec := ⟨env.sender, key, kind == 1, d, 0⟩
    let others := f.calls.filter fun r => !(r.caller == env.sender && r.key == key)
    ∃ t, exec (.callReceived env key kind dests) s = .next t ∧ s.changesOnly t [.plt, .cia, .tcu, .cp] ∧ s.eventsOnly t
      ∧ (∀ j, j ≠ i → t.feed j = s.feed j ∧ t.tone j = s.tone j)
      ∧ t.tone i = requestTone (s.tone i) .call ∧ t.tcu.clocks = s.tcu.clocks
      ∧ (f.calls.length < 4 ∨ others.length < f.calls.length →
          t.feed i = { f with calls := others ++ [new] }
            ∧ t.cp = s.told [.callIn i env.sender key (kind == 1) d])
      ∧ (∀ old rest, f.calls = old :: rest → rest.length = 3 → others = f.calls →
          (∀ r ∈ rest, r.caller ≠ old.caller ∨ r.key ≠ old.key) →
          t.feed i = { f with calls := rest ++ [new] }
            ∧ t.cp = s.told [.callExpired i old.caller old.key .dropped, .callIn i env.sender key (kind == 1) d]))
  ∧ ∀ (s : State) (env : Envelope) (key kind : Nat) (dests : List Nat),
    s.li.lineState = .active → Sizes s → env.good = true → env.sender ≠ s.number →
    (s.peer env.sender).present = true → malformed (lanesOf s.li.strapOrg) env (.call key kind dests) = false →
    let mine := fun r : CallRec => r.caller == env.sender && r.key == key
    let crowded := fun i => (s.feed i).calls.length = 4 ∧ (s.feed i).calls.any mine = false
    let events := fun i =>
      match s.matched i dests, (s.feed i).calls.head? with
      | some d, some old =>
        if crowded i then [Event.callExpired i old.caller old.key .dropped, .callIn i env.sender key (kind == 1) d]
        else [.callIn i env.sender key (kind == 1) d]
      | some d, none => [.callIn i env.sender key (kind == 1) d]
      | none, _ => []
    (∀ i, i < 6 → ((s.feed i).calls.map fun r => (r.caller, r.key)).Nodup ∧ (s.feed i).calls.length ≤ 4) →
    ∃ t, exec (.callReceived env key kind dests) s = .next t ∧ s.changesOnly t [.plt, .cia, .tcu, .cp]
      ∧ t.tcu.clocks = s.tcu.clocks ∧ t.cp = s.told ((List.range 6).flatMap events)
      ∧ ∀ i, i < 6 →
        (s.matched i dests = none → t.feed i = s.feed i ∧ t.tone i = s.tone i)
        ∧ ∀ d, s.matched i dests = some d →
          t.tone i = requestTone (s.tone i) .call
            ∧ (t.feed i).calls.getLast? = some ⟨env.sender, key, kind == 1, d, 0⟩
            ∧ t.feed i = { s.feed i with calls := (t.feed i).calls }
            ∧ (t.feed i).calls.dropLast =
                ((if crowded i then (s.feed i).calls.tail else (s.feed i).calls).filter fun r => !mine r)

/-- A good CALL-ACK of a PRESENT peer. One that names this station as caller: in SENT or ACKED the key's record is ACKED and CALL-ACKED is
raised; in QUEUED CALL-ACKED is raised and the record stays; in IDLE, and for a key without a record, nothing. For another caller
nothing. -/
def Obligations.CallAckHeard : Prop :=
  ∀ (s : State) (env : Envelope) (caller feed key : Nat),
    s.li.lineState = .active → env.good = true → env.sender ≠ s.number → (s.peer env.sender).present = true →
    malformed (lanesOf s.li.strapOrg) env (.callAck caller feed key) = false →
    let refreshed := { s.plt with peers := s.plt.peers.modify (env.sender - 1) fun q => { q with age := 0 } }
    let told := s.told [.callAcked key env.sender feed]
    (caller ≠ s.number ∨ s.callOrigin key = none ∨ (∃ r, s.callOrigin key = some r ∧ r.state = .idle) →
      exec (.callAckReceived env caller feed key) s = .next { s with plt := refreshed })
    ∧ (∀ r, caller = s.number → s.callOrigin key = some r →
        (r.state = .sent ∨ r.state = .acked →
          exec (.callAckReceived env caller feed key) s = .next { s with
            plt := refreshed, cp := told
            tru := { s.tru with calls := s.tru.calls.set key (some { r with state := .acked }) } })
        ∧ (r.state = .queued →
          exec (.callAckReceived env caller feed key) s = .next { s with plt := refreshed, cp := told }))

/-- A good TALLY of a PRESENT peer, at the one feed that answers it. ON puts the feed on air with its first record, removes every entry below
the on-air floor and raises TALLY-CHANGE; a record that is there has its age set to 0, and beyond four records nothing is done. OFF
removes the record, and the last one takes the feed off air with TALLY-CHANGE. -/
def Obligations.TallyHeard : Prop :=
  ∀ (s : State) (env : Envelope) (d i : Nat), let c := s.feedCfg i
    s.li.lineState = .active → Sizes s → EntryLaw s → env.good = true → env.sender ≠ s.number →
    (s.peer env.sender).present = true → malformed (lanesOf s.li.strapOrg) env (.tally d true) = false → i < 6 →
    s.matched i [d] = some d → (∀ j, j < 6 → j ≠ i → s.matched j [d] = none) →
    let f := s.feed i
    let mine := fun r : OnAir => r.origin == env.sender && r.dest == d
    (f.onAir = [] → (∀ e ∈ f.entries, e.chain = [] ∧ e.wantsMemo = false) → f.deferred.length ≤ 8 →
      ∃ t, exec (.tallyReceived env d true) s = .next t ∧ (∀ j, j ≠ i → t.feed j = s.feed j)
        ∧ s.changesOnly t [.li, .plt, .cia, .mu, .cp] ∧ s.queueOnly t
        ∧ (t.feed i).onAir = [⟨env.sender, d, 0⟩] ∧ (t.feed i).calls = f.calls
        ∧ (∀ e ∈ (t.feed i).entries, c.onAirFloor ≤ e.level)
        ∧ (∀ e ∈ f.entries, c.onAirFloor ≤ e.level → (t.feed i).find e.talker e.source ≠ none)
        ∧ t.cp = s.told [.tallyChange i true env.sender d .on])
    ∧ (f.onAir ≠ [] →
      ∃ t, exec (.tallyReceived env d true) s = .next t ∧ s.changesOnly t [.plt, .cia] ∧ (∀ j, j ≠ i → t.feed j = s.feed j)
        ∧ (f.onAir.any mine = true →
            t.feed i = { f with onAir := f.onAir.map fun r => if mine r then { r with age := 0 } else r })
        ∧ (f.onAir.any mine = false → f.onAir.length < 4 →
            t.feed i = { f with onAir := f.onAir ++ [⟨env.sender, d, 0⟩] })
        ∧ (f.onAir.any mine = false → 4 ≤ f.onAir.length → t.feed i = f))
    ∧ ∃ t, exec (.tallyReceived env d false) s = .next t ∧ s.changesOnly t [.plt, .cia, .cp]
        ∧ (∀ j, j ≠ i → t.feed j = s.feed j)
        ∧ t.feed i = { f with onAir := f.onAir.filter fun r => !mine r }
        ∧ ((f.onAir ≠ [] ∧ ∀ r ∈ f.onAir, mine r = true) → t.cp = s.told [.tallyChange i false env.sender d .off])
        ∧ ((f.onAir = [] ∨ ∃ r ∈ f.onAir, mine r = false) → t.cp = s.cp)

/-- A good CUE of a PRESENT peer at the one feed that answers it: a RUNNING clock of the origin, destination and feed restarts, else the lowest
IDLE clock is bound, with 1000 cycles for each second and 99 seconds at most; with no clock IDLE, CUE-REFUSED is raised. A CUE of 0
seconds makes the feed's clock IDLE and raises nothing. -/
def Obligations.CueHeard : Prop :=
  ∀ (s : State) (env : Envelope) (d seconds mode i : Nat),
    s.li.lineState = .active → Sizes s → ClockLaw s → env.good = true → env.sender ≠ s.number →
    (s.peer env.sender).present = true → i < 6 →
    s.matched i [d] = some d → (∀ j, j < 6 → j ≠ i → s.matched j [d] = none) →
    let k : Clock := ⟨env.sender, d, i, min seconds 99, mode == 1, 1000 * min seconds 99⟩
    let same := fun x : Clock => x.origin = env.sender ∧ x.dest = d ∧ x.feed = i
    (malformed (lanesOf s.li.strapOrg) env (.cue d seconds mode) = false → 1 ≤ seconds →
      ∃ t, exec (.cueReceived env d seconds mode) s = .next t ∧ s.changesOnly t [.plt, .tcu, .cp]
        ∧ t.tcu.slots = s.tcu.slots
        ∧ (∀ c x, c < 4 → s.clock c = some x → same x →
            t.clock c = some k ∧ t.cp = s.cp ∧ ∀ b, b ≠ c → t.clock b = s.clock b)
        ∧ (∀ c, (∀ b x, b < 4 → s.clock b = some x → ¬same x) → c < 4 → s.clock c = none →
            (∀ b, b < c → s.clock b ≠ none) →
            t.clock c = some k ∧ t.cp = s.cp ∧ ∀ b, b ≠ c → t.clock b = s.clock b)
        ∧ ((∀ b, b < 4 → ∃ x, s.clock b = some x ∧ ¬same x) →
            t.tcu = s.tcu
              ∧ t.cp = s.told [.cueRefused i env.sender d (min seconds 99)]))
    ∧ (malformed (lanesOf s.li.strapOrg) env (.cue d 0 mode) = false →
      ∃ t, exec (.cueStopReceived env d mode) s = .next t ∧ s.changesOnly t [.plt, .tcu] ∧ t.tcu.slots = s.tcu.slots
        ∧ ∀ c, c < 4 → t.clock c = match s.clock c with
          | some x => if x.origin = env.sender ∧ x.dest = d ∧ x.feed = i then none else some x
          | none => none)

/-- A good lane slot of a peer in a lane that is not MINE, in LISTENING or ACTIVE: the lane is HELD by the header's holder with its source and
programme, age 0 and block-seen set, and the holder PRESENT with age 0. In ACTIVE the slot is written into the lane store with its check,
which a failing slot is too; in LISTENING the store is not written. In ACTIVE the source of an own claim of the lane picks again, and so does a
source that has picked the lane (R32, R35); that is said for a slot that no memo stores, after PEER-CHANGE of a holder that was ABSENT. The own slot,
read back in ACTIVE, is written into the store, and changes no lane and no peer; the station drives nothing after it (R39). For a MINE lane R28 says
so; for a lane that has stopped being MINE in the middle of its slot it is the inference of log 13. A lane of L or above has no slot. -/
def Obligations.LaneSlotHeard : Prop :=
  ∀ (s : State) (l : Nat) (good : Bool) (slot : Slot), Sizes s →
    s.li.lineState = .listening ∨ s.li.lineState = .active →
    (l < lanesOf s.li.strapOrg → goodSlot good slot = true → slot.holder ≠ s.number → (∀ n, s.lane l ≠ .mine n) →
      ∃ t, exec (.laneSlotReceived l good false slot) s = .next t
        ∧ t.lane l = .held slot.holder slot.source slot.programme 0 true ∧ (∀ k, k ≠ l → t.lane k = s.lane k)
        ∧ (t.peer slot.holder).present = true ∧ (t.peer slot.holder).age = 0 ∧ s.queueOnly t ∧ s.eventsOnly t
        ∧ s.changesOnly t [.li, .plt, .cia, .mu, .mx, .cp]
        ∧ t.mx = if s.li.lineState = .active
            then { s.mx with store := s.mx.store.set l (some ⟨slot, true, s.mx.cycle⟩) } else s.mx)
    ∧ (s.li.lineState = .active → l < lanesOf s.li.strapOrg → goodSlot good slot = true → slot.holder ≠ s.number →
      (slot.quiet = true ∨ ∀ i, i < 6 → ∀ e ∈ (s.feed i).entries, e.talker = slot.holder → e.source = slot.source → e.chain = []) →
      let before := if (s.peer slot.holder).present = true then [] else [Event.peerChange slot.holder true none]
      ∃ t, exec (.laneSlotReceived l good false slot) s = .next t
        ∧ ∀ n, n < 5 →
          (∀ count, s.lane l = .claiming n count → (s.source n).phase = .claiming l →
            s.picks t n before ∧ ∀ k, k ≠ n → t.source k = s.source k)
          ∧ (s.lane l = .free → (s.source n).phase = .pending l → (∀ k, k < 5 → k ≠ n → (s.source k).phase ≠ .pending l) →
            s.losesPick t n l before ∧ ∀ k, k ≠ n → t.source k = s.source k))
    ∧ (l < lanesOf s.li.strapOrg → goodSlot good slot = false →
      exec (.laneSlotReceived l good false slot) s = .next (if s.li.lineState = .active
        then { s with mx := { s.mx with store := s.mx.store.set l (some ⟨slot, false, s.mx.cycle⟩) } } else s))
    ∧ (s.li.lineState = .active → l < lanesOf s.li.strapOrg → goodSlot good slot = true → slot.holder = s.number → s.drivesSlot l = true →
      ∃ t, exec (.laneSlotReceived l good true slot) s = .next t ∧ s.changesOnly t [.li, .cia, .mu, .mx, .cp]
        ∧ t.li = { s.li with driving := none } ∧ s.eventsOnly t
        ∧ t.mx = { s.mx with store := s.mx.store.set l (some ⟨slot, true, s.mx.cycle⟩) })
    ∧ (lanesOf s.li.strapOrg ≤ l → exec (.laneSlotReceived l good false slot) s = .next s)

/-- Memo capture and playback. A good, voiced slot of the talker and source of an entry that records its lane, holds a tag and has a chain is
stored at the end of the chain's tail, narrowed in FINE; where the tail is full, in the next channel, when that is allowed and IDLE, and the
chain is the longer; else it is lost and counted, the first of a run with MEMO-STATE FULL. The chain is in PLAY, CAPTURE or PAUSE by its
entry's place, or in FULL after a lost block unless it is played. A slot that fails its check or is quiet stores nothing (one that bears the
own number and is not the station's silences it, R13).

The read pass over a CUT-IN feed reads the top once: the oldest block is taken and widened by 256, and a head that it empties is IDLE unless
it is the tail; a live entry's chain without a block is freed, and the entry handed over to live audio; a draining entry's is freed and the
entry leaves, and the entry beneath is read in the same pass. CYCLE_OPENING in ACTIVE runs it on every feed in use: said where no other feed has memo,
every due step is left to its command and no key is of the PIN-LEVEL kind. -/
def Obligations.MemoSteps : Prop :=
  (∀ (s : State) (l i tail : Nat) (slot : Slot) (e : Entry),
    s.li.lineState = .active → Sizes s → EntryLaw s → MemoLaw s → l < lanesOf s.li.strapOrg → goodSlot true slot = true →
    slot.quiet = false → slot.samples.length = 48 → slot.holder ≠ s.number → (s.peer slot.holder).present = true →
    (∃ src p age seen, s.lane l = .held slot.holder src p age seen) →
    i < 6 → (s.feed i).find slot.holder slot.source = some e → e.lane = l → e.tags ≠ [] → e.chain.getLast? = some tail →
    (∀ j, j < 6 → j ≠ i → (s.feed j).find slot.holder slot.source = none) →
    let ch := s.channel tail
    let block := if s.li.strapOrg = 1 then slot.samples.map fun x => max (-32768) (min 32767 ((x + 128) / 256)) else slot.samples
    let room := ch.blocks.length < (s.memoCfg tail).capacity
    let next := (s.memoCfg tail).chain = true ∧ tail < 3 ∧ (s.channel (tail + 1)).state = .idle
    let place := fun lost : Bool => chainState false (isAudible (mixingFeed (s.feedCfg i)) (s.feed i) e)
      ((s.feed i).deferred.any (Entry.isFor e.talker e.source)) lost
    ∃ t, exec (.laneSlotReceived l true false slot) s = .next t ∧ s.changesOnly t [.plt, .cia, .mu, .mx, .cp]
      ∧ (∀ j, j ≠ i → t.feed j = s.feed j)
      ∧ (room → t.cia = s.cia ∧ t.cp = s.cp
          ∧ t.channel tail = { ch with state := place false, blocks := ch.blocks ++ [block], lostRun := false })
      ∧ (¬room → next → t.feed i = (s.feed i).modEntry e.talker e.source (fun x => { x with chain := x.chain ++ [tail + 1] })
          ∧ t.cp = s.cp
          ∧ t.channel (tail + 1) = ⟨place false, some ⟨i, e.talker, e.source⟩, [block], 0, false⟩
          ∧ (t.channel tail).blocks = ch.blocks)
      ∧ (¬room → ¬next → t.cia = s.cia
          ∧ t.channel tail = { ch with state := place true, lost := min (ch.lost + 1) 65535, lostRun := true }
          ∧ t.cp = if ch.lostRun = true then s.cp else s.told [.memoState i e.talker e.source (.full tail)])
      ∧ (∀ c ∈ e.chain, c ≠ tail → (t.channel c).blocks = (s.channel c).blocks)
      ∧ ∀ c, c ∉ e.chain → c ≠ tail + 1 → t.channel c = s.channel c)
  ∧ (∀ (s : State) (l : Nat) (good own : Bool) (slot : Slot), s.li.lineState = .active → (good = false ∨ slot.quiet = true) →
    good = false ∨ own = true ∨ slot.holder ≠ s.number →
    ∃ t, exec (.laneSlotReceived l good own slot) s = .next t ∧ t.mu = s.mu ∧ t.cia = s.cia)
  ∧ (∀ (s : State) (i : Nat) (lower : List Entry) (e : Entry) (head : Nat) (rest : List Nat),
    Sizes s → EntryLaw s → MemoLaw s → i < 6 → mixingFeed (s.feedCfg i) = false →
    (s.feed i).stack = lower ++ [e] → e.chain = head :: rest →
    let t := s.readPass i
    (∀ j, j ≠ i → t.feed j = s.feed j)
      ∧ (∀ b more, (s.channel head).blocks = b :: more →
          let now := { e with played := some (b.map fun x => x * 256) }
          s.changesOnly t [.cia, .mu]
          ∧ (more = [] → rest ≠ [] →
              t.feed i = { s.feed i with stack := lower ++ [{ now with chain := rest }] }
                ∧ t.channel head = ⟨.idle, none, [], 0, false⟩)
          ∧ (more ≠ [] ∨ rest = [] →
              t.feed i = { s.feed i with stack := lower ++ [now] } ∧ t.channel head = { s.channel head with blocks := more })
          ∧ ∀ c, c ≠ head → t.channel c = s.channel c)
      ∧ ((s.channel head).blocks = [] → e.draining = false →
          t.feed i = { s.feed i with stack := lower ++ [{ e with chain := [] }] } ∧ s.changesOnly t [.cia, .mu]
            ∧ (∀ c ∈ e.chain, t.channel c = ⟨.idle, none, [], 0, false⟩) ∧ ∀ c, c ∉ e.chain → t.channel c = s.channel c)
      ∧ ((s.channel head).blocks = [] → e.draining = true → (s.feed i).deferred = [] →
          (∀ c ∈ e.chain, t.channel c = ⟨.idle, none, [], 0, false⟩) ∧ s.changesOnly t [.cia, .mu]
            ∧ (lower = [] → (t.feed i).stack = [])
            ∧ ∀ under b c bs more more', lower = under ++ [b] → b.chain = c :: more → (s.channel c).blocks = bs :: more' →
              (more' ≠ [] ∨ more = []) →
              t.feed i = { s.feed i with
                  stack := under ++ [{ b with played := some (bs.map fun x => x * 256) }], reply := some b.talker }
                ∧ (t.channel c).blocks = more'))
  ∧ ∀ (s : State) (pins : List KeyLevel) (apart : List DueKind) (i : Nat), s.owed = [] → Sizes s → EntryLaw s → MemoLaw s →
    s.li.lineState = .active → i < 6 → usedFeed (s.feedCfg i) = true → (∀ d : Due, d.kind ∈ apart) →
    (∀ k, k < 12 → (s.keyCfg k).kind ≠ 1) → (∀ j, j < 6 → j ≠ i → ∀ e ∈ (s.feed j).entries, e.chain = []) →
    let read := (s.clearPlayed i).readPass i
    let unheard := fun e : Entry => { e with voice := none }
    ∃ t, exec (.cycleOpening pins apart) s = .next t ∧ t.mu = read.mu
      ∧ (t.feed i).stack.map unheard = (read.feed i).stack.map unheard
      ∧ (t.feed i).admitted.map unheard = (read.feed i).admitted.map unheard


/-- LANE_SLOT_TRANSMIT in ACTIVE or LEAVING drives the slot of a lane that the view marks MINE, from the time of the slot (log 1): holder and
source, the quiet flag and 48 zeros for a QUIET S0–S3 or a field channel in FILLING after a resync, the programme number for S4, which is
never quiet. A slot that is not quiet carries the block that the detector last evaluated, or for S4 the local programme block, as it is in
FINE and narrowed in DENSE. It drives no slot of any other lane.

SLOT_HEADER_LOST in a MINE lane that is being driven, to another station: the lane is HELD by the winner with source 0, programme 0, age
0 and block-seen set, and the winner is PRESENT with age 0. In ACTIVE the source picks again, the lowest FREE lane that no other own source has
picked, or is WAITING with LANE-WAIT where there is none (R32, R36), and is marked moved when it has an open path, and its ISSUED records, none of
them locked, return to PREPARING; in LEAVING it returns to phase NONE. -/
def Obligations.OwnLaneSlots : Prop :=
  (∀ (s : State) (l n : Nat),
      (s.li.lineState = .active ∨ s.li.lineState = .leaving → s.lane l = .mine n → s.li.driving = none →
        ∃ slot, exec (.laneSlotTransmit l) s = .next { s with li := { s.li with
              micros := max s.li.micros (s.li.markStart + (900 + (if s.li.strapOrg = 1 then 1200 else 800) * l) / 25)
              driving := some (.slot l slot) } }
          ∧ slot.holder = s.li.strapNumber ∧ slot.source = n ∧ slot.samples.length = 48
          ∧ (4 ≤ n → slot.quiet = false)
          ∧ (n < 4 → (slot.quiet = true ↔ (s.vox n).voice = false
              ∨ 2 ≤ n ∧ (s.chan (n - 2)).state = .filling ∧ (s.chan (n - 2)).resync = true))
          ∧ (slot.quiet = true → ∀ x ∈ slot.samples, x = 0)
          ∧ (let raw := if n = 4 then s.mx.localBlock else (s.vox n).block
             slot.quiet = false → n ≤ 4 → raw.length = 48 →
              slot.samples = if s.li.strapOrg = 1 then raw else raw.map fun x => max (-32768) (min 32767 ((x + 128) / 256)))
          ∧ slot.programme = (if n = 4 then s.cfg.station.published else 0))
      ∧ ((∀ n, s.lane l ≠ .mine n) → exec (.laneSlotTransmit l) s = .next s))
    ∧ (∀ (s : State) (l n w : Nat) (slot : Slot), Sizes s → l < lanesOf s.li.strapOrg → n < 5 → 1 ≤ w → w ≤ 62 →
      w ≠ s.number → s.li.driving = some (.slot l slot) → s.lane l = .mine n →
      (s.li.lineState = .active →
        ∃ t, exec (.slotHeaderLost w) s = .next t ∧ s.changesOnly t [.li, .plt, .tru, .cp] ∧ s.eventsOnly t
          ∧ t.li.driving = none ∧ t.lane l = .held w 0 0 0 true ∧ (∀ k, k ≠ l → t.lane k = s.lane k)
          ∧ (t.peer w).present = true ∧ (t.peer w).age = 0 ∧ (∀ k, k ≠ n → t.source k = s.source k)
          ∧ (t.source n).need = (s.source n).need
          ∧ ((t.source n).moved = true ↔ (s.source n).moved = true ∨
              ∃ g p, g < 14 ∧ s.path g = some p ∧ p.state = .opened ∧ p.req.source = n)
          ∧ ((s.source n).phase = .mine l →
              s.picks t n (if (s.peer w).present = true then [] else [.peerChange w true none]))
          ∧ (∀ g p, s.path g = some p →
              t.path g = if p.state = .issued ∧ p.req.source = n ∧ s.lockedMsg (isOpenOf g) = false
                then some { p with state := .preparing, serial := none, lane := none } else some p))
      ∧ (s.li.lineState = .leaving →
        ∃ t, exec (.slotHeaderLost w) s = .next t ∧ s.changesOnly t [.li, .plt]
          ∧ t.li = { s.li with driving := none } ∧ t.lane l = .held w 0 0 0 true
          ∧ t.source n = { s.source n with phase := .idle } ∧ (t.peer w).present = true))

/-- DEBOUNCE_COMPLETE, left by an opening, for a PIN key in use whose level has differed at eight openings: the level is taken. In
LISTENING a press is refused with LINE; a release of an IDLE key does no more; in ACTIVE the press of an IDLE TALK key, or of a REPLY key with a
station in its register, whose tag has no record opens, as KEY-SET does for a PORT key, and with an empty register it is refused with NO-REPLY.
The release of a MOMENTARY key that is OPENING or OPEN closes: a PREPARING or ISSUED record, not locked, is freed and an OPEN one is CLOSING. The
press of a CALL key offers its CALL, or is refused with QUEUE.

CYCLE_OPENING, with every due step left to its own command, gives a PIN-LEVEL key the level of its pin at once. A level that it has already
changes nothing; in LISTENING a press is refused with LINE; in ACTIVE the press of an IDLE TALK or REPLY key whose tag has no record opens, the
press of a CALL key offers its CALL, and the release of a TALK or REPLY key that is OPENING or OPEN closes: a PREPARING record is freed and an
OPEN one is CLOSING. -/
def Obligations.DebounceTaken : Prop :=
  (∀ (s : State) (k : Nat), let c := s.keyCfg k
    let level := fun l => { s with
      ku := { s.ku with keys := s.ku.keys.modify k fun r => { r with stable := l, debounce := 0 } }
      owed := s.owed.erase (.debounce k) }
    Due.debounce k ∈ s.owed → Sizes s → k < 12 → c.fn ≠ 0 → c.kind = 0 → 7 ≤ (s.key k).debounce →
    ((s.key k).stable = .up → s.li.lineState = .listening →
      exec (.debounceComplete k) s = .next ((level .down).raise (.keyRefused k .line)))
    ∧ ((s.key k).stable = .down → (s.key k).logical = .idle →
      exec (.debounceComplete k) s = .next (level .up))
    ∧ (∀ dests resolved, (s.key k).stable = .up → (s.key k).logical = .idle → s.li.lineState = .active → c.mode ≤ 2 →
        (c.fn = 1 ∧ dests = c.dests ∧ resolved = none
          ∨ c.fn = 3 ∧ ∃ n, (s.feed c.replyFeed).reply = some n ∧ dests = [n] ∧ resolved = some n) →
        s.path k = none →
      ∃ t p, exec (.debounceComplete k) s = .next t ∧ s.changesOnly t [.li, .plt, .ku, .tru, .cp, .owed]
        ∧ t.owed = s.owed.erase (.debounce k)
        ∧ t.key k = ⟨.down, 0, .opening, c.mode == 1, if c.mode = 2 then 0 else (s.key k).pressLength, resolved⟩
        ∧ (∀ j, j ≠ k → t.key j = s.key j ∧ t.path j = s.path j)
        ∧ t.path k = some p ∧ p.req = ⟨c.source, c.level, c.memo, dests⟩ ∧ p.answers = [] ∧ p.successor = none
        ∧ (p.state = .preparing ∨ p.state = .issued))
    ∧ ((s.key k).stable = .up → (s.key k).logical = .idle → s.li.lineState = .active → c.fn = 3 → c.mode ≤ 2 →
        (s.feed c.replyFeed).reply = none →
      exec (.debounceComplete k) s = .next ((level .down).raise (.keyRefused k .noReply)))
    ∧ (∀ r, (s.key k).stable = .up → s.li.lineState = .active → c.fn = 2 → s.callOrigin k = some r →
      (s.li.queue.length < 12 →
        exec (.debounceComplete k) s = .next { level .down with
          li := { s.li with queue := insertMsg (.call k c.callKind c.dests) s.li.queue }
          tru := { s.tru with calls := s.tru.calls.set k (some ⟨.queued, r.unsent + 1⟩) } })
      ∧ (12 ≤ s.li.queue.length →
        exec (.debounceComplete k) s = .next ((level .down).raise (.keyRefused k .queue))))
    ∧ ((s.key k).stable = .down → s.li.lineState = .active → c.fn = 1 ∨ c.fn = 3 → c.mode = 0 →
        (s.key k).logical = .opening ∨ (s.key k).logical = .opened →
      ∃ t, exec (.debounceComplete k) s = .next t ∧ s.changesOnly t [.li, .plt, .ku, .tru, .cp, .owed]
        ∧ t.key k = ⟨.up, 0, .idle, false, (s.key k).pressLength, none⟩
        ∧ (∀ j, j ≠ k → t.key j = s.key j ∧ t.path j = s.path j)
        ∧ ∀ p, s.path k = some p →
          (p.state = .preparing ∨ p.state = .issued ∧ s.lockedMsg (isOpenOf k) = false → t.path k = none)
          ∧ (p.state = .opened → ∃ q, t.path k = some q ∧ q.state = .closing ∧ q.successor = p.successor)))
  ∧ ∀ (s : State) (pins : List KeyLevel) (apart : List DueKind) (k : Nat), let c := s.keyCfg k
    s.owed = [] → Sizes s → (∀ d : Due, d.kind ∈ apart) → k < 12 → c.fn ≠ 0 → c.kind = 1 → c.mode = 0 →
    s.li.lineState = .listening ∨ s.li.lineState = .active →
    ∃ t, exec (.cycleOpening pins apart) s = .next t ∧ (t.key k).stable = pins.getD k .up
      ∧ (pins.getD k .up = (s.key k).stable → t.key k = s.key k)
      ∧ (s.li.lineState = .listening → (s.key k).stable = .up → pins.getD k .up = .down → s.cp.events.length ≤ 18 →
          Event.keyRefused k .line ∈ t.cp.events)
      ∧ (∀ dests resolved, s.li.lineState = .active → (s.key k).stable = .up → pins.getD k .up = .down → (s.key k).logical = .idle →
          (c.fn = 1 ∧ dests = c.dests ∧ resolved = none
            ∨ c.fn = 3 ∧ ∃ n, (s.feed c.replyFeed).reply = some n ∧ dests = [n] ∧ resolved = some n) →
          s.path k = none →
          t.key k = ⟨.down, 0, .opening, false, (s.key k).pressLength, resolved⟩
            ∧ ∃ p, t.path k = some p ∧ p.req = ⟨c.source, c.level, c.memo, dests⟩
              ∧ (p.state = .preparing ∨ p.state = .issued))
      ∧ (∀ r, s.li.lineState = .active → c.fn = 2 → (s.key k).stable = .up → pins.getD k .up = .down → s.callOrigin k = some r →
          (∀ j, j < 12 → j ≠ k → (s.keyCfg j).kind ≠ 1) →
          (s.li.queue.length < 12 →
            t.callOrigin k = some ⟨.queued, r.unsent + 1⟩ ∧ ∃ o ∈ t.li.queue, o.msg = .call k c.callKind c.dests)
          ∧ (12 ≤ s.li.queue.length → t.callOrigin k = some r
            ∧ (s.cp.events.length ≤ 18 → Event.keyRefused k .queue ∈ t.cp.events)))
      ∧ (s.li.lineState = .active → c.fn = 1 ∨ c.fn = 3 → (s.key k).stable = .down → pins.getD k .up = .up →
          (s.key k).logical = .opening ∨ (s.key k).logical = .opened →
          t.key k = ⟨.up, 0, .idle, false, (s.key k).pressLength, none⟩
            ∧ ∀ p, s.path k = some p →
              (p.state = .preparing → t.path k = none)
              ∧ (p.state = .opened → ∃ q, t.path k = some q ∧ q.state = .closing ∧ q.successor = p.successor))

/-- PRESENCE_DUE, PEER_AGING_ABSENT, LANE_AGE_EXPIRY, OUTSTANDING_ENTRY_RETIRE and TALLY_REFRESH, left by an opening. A PRESENCE with the new
flag clear is offered. A peer of silence age 1000 is ABSENT: no lane stays HELD by it, no entry keeps a tag of it, and its call and on-air
records are gone. A HELD lane of age 4 is FREE, and a waiting source picks it.

The head of the outstanding request queue of age 16 leaves it, with a PATH-RESULT that gives for each destination, in order, the answers admitted,
held, refused and removed and the overflow count, and the place lets out the TALK-OPEN of a PREPARING record whose lane is MINE. A listed
destination of refresh count 500 is announced again, and its count is 0 where the queue admits the TALLY. -/
def Obligations.AgingAndRequestSteps : Prop :=
  (∀ (s : State) (n : Nat), Sizes s →
    (Due.presence ∈ s.owed → s.li.lineState = .active →
      ∃ t, exec .presenceDue s = .next t ∧ s.changesOnly t [.li, .owed] ∧ t.owed = s.owed.erase .presence ∧ s.queueOnly t
        ∧ (s.li.queue.length < 12 → t.li.queue = insertMsg
            (.presence false (s.li.joinStamp.getD 0) (s.cfg.station.fieldEnable == 1) s.cfg.station.published) s.li.queue)
        ∧ (12 ≤ s.li.queue.length → t.li.queue = s.li.queue))
    ∧ (Due.peer n ∈ s.owed → s.li.lineState = .listening ∨ s.li.lineState = .active → 1 ≤ n → n ≤ 62 → n ≠ s.number →
        (s.peer n).present = true → 1000 ≤ (s.peer n).age →
      ∃ t, exec (.peerAgingAbsent n) s = .next t ∧ s.changesOnly t [.li, .plt, .cia, .mu, .cp, .owed]
        ∧ s.queueOnly t ∧ s.eventsOnly t ∧ t.peer n = ⟨false, 1000, none, false, 0⟩
        ∧ (∀ j, 1 ≤ j → j ≠ n → t.peer j = s.peer j)
        ∧ (∀ l src p age seen, t.lane l ≠ .held n src p age seen)
        ∧ (∀ l, (∀ src p age seen, s.lane l ≠ .held n src p age seen) → t.lane l = s.lane l)
        ∧ ∀ i, i < 6 → (∀ e ∈ (t.feed i).entries, e.talker = n → e.draining = true)
            ∧ (∀ r ∈ (t.feed i).calls, r.caller ≠ n) ∧ ∀ r ∈ (t.feed i).onAir, r.origin ≠ n)
    ∧ (∀ h src p age seen, Due.lane n ∈ s.owed → s.li.lineState = .listening ∨ s.li.lineState = .active →
        n < lanesOf s.li.strapOrg → s.lane n = .held h src p age seen → 4 ≤ age →
      ∃ t, exec (.laneAgeExpiry n) s = .next t ∧ s.changesOnly t [.li, .plt, .owed] ∧ s.queueOnly t
        ∧ t.lane n = .free ∧ (∀ l, l ≠ n → t.lane l = s.lane l) ∧ t.plt.peers = s.plt.peers
        ∧ (∀ k, (s.source k).phase ≠ .waiting → t.source k = s.source k)
        ∧ (s.li.lineState = .active → (s.source 0).phase = .waiting →
            (∀ l, l < s.plt.lanes.length → s.lane l ≠ .free) → (∀ k, k < 5 → (s.source k).phase ≠ .pending n) →
            (t.source 0).phase = .pending n)))
  ∧ ∀ (s : State), s.li.lineState = .active →
    (∀ o rest, Due.retire ∈ s.owed → s.tru.outstanding = o :: rest → 16 ≤ o.age →
      ∃ t, exec .outstandingEntryRetire s = .next t ∧ s.changesOnly t [.li, .tru, .cp, .owed] ∧ s.queueOnly t
        ∧ t.tru.outstanding = rest
        ∧ (let count := fun (d : Nat) (state : ItemState) => (o.answers.filter fun j => j.dest == d && j.state == state).length
           t.cp = s.told [.pathResult o.tag o.serial o.source o.closedEarly ((o.dests.zip o.overflow).map fun x =>
             ⟨x.1, count x.1 .admitted, count x.1 .held, count x.1 .refused, count x.1 .removed, x.2⟩)])
        ∧ (∀ g p, s.path g = some p → p.state ≠ .preparing → t.path g = some p)
        ∧ (∀ g, s.path g = none → t.path g = none)
        ∧ ∀ g p l, g < 14 → s.path g = some p → p.state = .preparing → s.mineLane p.req.source = some l →
            (∀ k r, s.path k = some r → r.state = .preparing → k = g) → rest.length + s.issuedCount < 6 →
            s.li.queue.length < 12 →
            t.path g = some { p with state := .issued, serial := some s.tru.serial, lane := some l }
              ∧ t.tru.serial = (s.tru.serial + 1) % 256
              ∧ t.li.queue = insertMsg (openMessage g p s.tru.serial l false) s.li.queue)
    ∧ (∀ d r, Due.refresh d ∈ s.owed → r ∈ s.tru.tallies → r.dest = d → 500 ≤ r.refresh →
      ∃ t, exec (.tallyRefresh d) s = .next t ∧ s.changesOnly t [.li, .tru, .owed] ∧ s.queueOnly t
        ∧ (s.li.queue.length < 12 → t.li.queue = insertMsg (.tally d true) s.li.queue
            ∧ t.tru = { s.tru with tallies := s.tru.tallies.map fun x => if x.dest = d then { x with refresh := 0 } else x })
        ∧ (12 ≤ s.li.queue.length → t.li = s.li ∧ t.tru = s.tru))

/-- DEFER_EXPIRY, ON_AIR_EXPIRY, CALL_REPEAT and CALL_EXPIRY, left by an opening. A held entry at the defer limit leaves its feed, and its
place stays empty. An on-air record of age 2000 leaves, the last one with TALLY-CHANGE. An URGENT record of age 5000, 10000, 15000, 20000 or
25000 asks for its tone again. A call record of age 30000 leaves with CALL-EXPIRED.

CUE_TONE_REQUEST, CUE_CLOCK_ZERO and TONE_PHASE_END, left by an opening. The request that the clock's test made is sent to its feed's tone
slot, with the feed and the pattern that the test found (log 4). At zero a REPEAT clock whose origin is PRESENT reloads, and any other is IDLE
with CUE-EXPIRED; a request of the same test that is still to send is sent before. A completed phase of a tone gives way to the next, or the
slot is empty after the last. -/
def Obligations.ArbiterClockAndToneSteps : Prop :=
  (∀ (s : State) (i a b : Nat), s.li.lineState = .active → Sizes s → i < 6 →
    let f := s.feed i
    (∀ e, Due.defer i a b ∈ s.owed → EntryLaw s → e ∈ f.deferred → e.talker = a → e.source = b →
        s.cfg.station.deferLimit ≤ e.deferAge →
      ∃ t, exec (.deferExpiry i a b) s = .next t ∧ s.changesOnly t [.li, .cia, .mu, .cp, .owed]
        ∧ (∀ j, j ≠ i → t.feed j = s.feed j)
        ∧ t.feed i = { f with deferred := f.deferred.filter fun x => !(x.talker == a && x.source == b) }
        ∧ t.li = (if e.draining = true ∨ 16 ≤ s.li.queue.length then s.li
            else { s.li with queue := insertMsg (.feedNotice i a b 3 3) s.li.queue })
        ∧ t.cp = (if s.chainFill e.chain = 0 then s.cp
            else s.told [.memoState i a b (.discarded (s.chainFill e.chain) .expired)]))
    ∧ (∀ r, Due.onAir i a b ∈ s.owed → r ∈ f.onAir → r.origin = a → r.dest = b → 2000 ≤ r.age →
      ∃ t, exec (.onAirExpiry i a b) s = .next t ∧ s.changesOnly t [.cia, .cp, .owed]
        ∧ (∀ j, j ≠ i → t.feed j = s.feed j)
        ∧ t.feed i = { f with onAir := f.onAir.filter fun x => !(x.origin == a && x.dest == b) }
        ∧ t.cp = if (∀ x ∈ f.onAir, x.origin = a ∧ x.dest = b) then s.told [.tallyChange i false a b .expired] else s.cp)
    ∧ (∀ r, Due.callRepeat i a b ∈ s.owed → r ∈ f.calls → r.caller = a → r.key = b → r.urgent = true →
        r.age ∈ [5000, 10000, 15000, 20000, 25000] →
      exec (.callRepeat i a b) s = .next { s with
        tcu := { s.tcu with slots := s.tcu.slots.set i (requestTone (s.tone i) .call) }
        owed := s.owed.erase (.callRepeat i a b) })
    ∧ (∀ r, Due.callExpiry i a b ∈ s.owed → r ∈ f.calls → r.caller = a → r.key = b → 30000 ≤ r.age →
      ∃ t, exec (.callExpiry i a b) s = .next t ∧ s.changesOnly t [.cia, .cp, .owed]
        ∧ (∀ j, j ≠ i → t.feed j = s.feed j)
        ∧ t.feed i = { f with calls := f.calls.filter fun x => !(x.caller == a && x.key == b) }
        ∧ t.cp = s.told [.callExpired i a b .age]))
  ∧ ∀ (s : State) (c i : Nat) (p : Pattern) (k : Clock) (x : Tone), Sizes s →
    let only := ∀ j q, Due.cueTone c j q ∈ s.owed → j = i ∧ q = p
    (Due.cueTone c i p ∈ s.owed → only → s.li.lineState = .active →
      exec (.cueToneRequest c) s = .next { s with
        tcu := { s.tcu with slots := s.tcu.slots.set i (requestTone (s.tone i) p) }
        owed := s.owed.erase (.cueTone c i p) })
    ∧ (Due.cueZero c ∈ s.owed → (∀ j q, Due.cueTone c j q ∉ s.owed) → s.li.lineState = .active → c < 4 → s.clock c = some k →
        k.remaining = 0 →
      let clock := fun v => { s with
        tcu := { s.tcu with clocks := s.tcu.clocks.set c v }, owed := s.owed.erase (.cueZero c) }
      (k.repeats = true → (s.peer k.origin).present = true →
        exec (.cueClockZero c) s = .next (clock (some { k with remaining := 1000 * k.seconds })))
      ∧ (k.repeats = false ∨ (s.peer k.origin).present = false →
        exec (.cueClockZero c) s =
          .next ((clock none).raise (.cueExpired c k.feed k.origin k.dest k.repeats))))
    ∧ (Due.cueZero c ∈ s.owed → Due.cueTone c i p ∈ s.owed → only → s.owed.count (.cueTone c i p) = 1 →
      ∃ sent, exec (.cueToneRequest c) s = .next sent ∧ exec (.cueClockZero c) s = exec (.cueClockZero c) sent
        ∧ Due.cueZero c ∈ sent.owed ∧ ∀ j q, Due.cueTone c j q ∉ sent.owed)
    ∧ (Due.tonePhase i ∈ s.owed → i < 6 → s.tone i = some x → x.phase < x.pattern.phases.length →
        (x.pattern.phases.getD x.phase (false, 0)).2 ≤ x.mixes →
      let next := if x.phase + 1 < x.pattern.phases.length then some ⟨x.pattern, x.phase + 1, 0, 0⟩ else none
      exec (.tonePhaseEnd i) s = .next { s with
        tcu := { s.tcu with slots := s.tcu.slots.set i next }
        owed := s.owed.erase (.tonePhase i) })

/-- HANG_EXPIRY, LEAVING_TIMEOUT and FIELD_LOSS, left by an opening. A source whose hang count has reached its hang is QUIET with count 0. At
the 20th opening LEAVING ends in OFFLINE, with the microsecond count and the runs of input samples kept, and the time of the last mark and the
count of openings 0 (log 3). A field channel of loss count 100 is LOST: its queue flushed, its last block zeros, its loss count 0 (log 10), its
need and its open talk ended, with FIELD-STATE; its lane is given up by the phase of its source (R38). -/
def Obligations.HangLeavingAndLossSteps : Prop :=
  ∀ (s : State) (n : Nat), Sizes s →
    (Due.hang n ∈ s.owed → n < 4 → (s.sourceCfg n).vox ≠ 0 → (s.vox n).voice = true →
        (s.sourceCfg n).hang ≤ (s.vox n).hang →
      ∃ t, exec (.hangExpiry n) s = .next t ∧ s.changesOnly t [.vd, .owed] ∧ t.vd.micA = s.vd.micA
        ∧ t.vd.micB = s.vd.micB ∧ t.vox n = { s.vox n with voice := false, hang := 0 } ∧ ∀ m, m ≠ n → t.vox m = s.vox m)
    ∧ (Due.leaving ∈ s.owed → s.li.lineState = .leaving → 20 ≤ s.li.leavingCount →
      exec .leavingTimeout s = .next (s.wiped .leaving s.cp.response))
    ∧ (Due.fieldLoss n ∈ s.owed → s.li.lineState = .active → n < 2 → 100 ≤ (s.chan n).loss →
        (s.chan n).state = .filling ∨ (s.chan n).state = .playing →
      ∃ t, exec (.fieldLoss n) s = .next t ∧ s.changesOnly t [.li, .plt, .tru, .fb, .cp, .owed] ∧ s.queueOnly t
        ∧ t.chan n = { s.chan n with state := .lost, queue := [], offset := 0, last := zeroBlock, resync := false,
                                     loss := 0, openTalk := .none }
        ∧ (∀ m, m ≠ n → t.chan m = s.chan m) ∧ t.fb = { s.fb with chans := t.fb.chans }
        ∧ (t.source (2 + n)).need = false
        ∧ ((s.source (2 + n)).need = true → (∀ p, s.path (12 + n) = some p → p.req.source = 2 + n) → s.needEnds t (2 + n))
        ∧ t.cp = s.told [.fieldState n (s.chan n).state .lost (s.chan n).expected .loss]
        ∧ ((s.chan n).openTalk ≠ .none → ∀ p, s.path (12 + n) = some p →
            (p.state = .opened → ∃ q, t.path (12 + n) = some q ∧ q.state = .closing)
            ∧ (p.state = .preparing → t.path (12 + n) = none)))

/-- FIELD_FRAME_ARRIVAL with the field enable on, in ACTIVE, for a frame of 965 bytes with a good check. One that names one channel alone starts
FILLING in IDLE and LOST, with itself as frame E; a late frame and a duplicate are counted and dropped; one 8 or more ahead restarts a FILLING
queue, and sends a PLAYING channel to FILLING with its resync flag; any other joins the queue by its number, and one that completes the target
fill starts PLAYING. A frame at fault is counted, up to 65535 (log 10), and reaches no channel. A channel whose loss the last opening left to
its command is LOST before the frame, which then starts FILLING (log 4). A frame that names both channels does to each what a frame of that channel
alone does, A before B (log 4). FIELD_FRAME_SENT sends the frame that waits. -/
def Obligations.FieldFrames : Prop :=
  ∀ (s : State) (frame : FieldFrame) (c : Nat), Sizes s →
    let ch := s.chan c
    let f : HeldFrame := ⟨frame.number, if c = 0 then frame.samplesA else frame.samplesB⟩
    let d := (frame.number + 65536 - ch.expected) % 65536
    let own := ∃ x ∈ ch.queue, x.number = frame.number
    (exec .fieldFrameSent s = .next { s with fb := { s.fb with sending := s.fb.hold, hold := none } })
    ∧ (s.li.lineState ≠ .active ∨ s.cfg.station.fieldEnable ≠ 1 → exec (.fieldFrameArrival frame) s = .next s)
    ∧ (s.li.lineState = .active → s.cfg.station.fieldEnable = 1 →
      (frame.good = false ∨ frame.length ≠ 965 →
        exec (.fieldFrameArrival frame) s = .next { s with fb := { s.fb with checkFails := min (s.fb.checkFails + 1) 65535 } })
      ∧ (frame.good = true → frame.length = 965 → frame.flags % 4 = 0 → exec (.fieldFrameArrival frame) s = .next s)
      ∧ (frame.good = true → frame.length = 965 → frame.flags % 4 = 3 → Due.fieldLoss 1 ∉ s.owed →
          ∃ t u, exec (.fieldFrameArrival frame) s = .next u
            ∧ exec (.fieldFrameArrival { frame with flags := 1 }) s = .next t
            ∧ exec (.fieldFrameArrival { frame with flags := 2 }) t = .next u)
      ∧ (frame.good = true → frame.length = 965 → c < 2 → frame.flags % 4 = c + 1 → Due.fieldLoss c ∈ s.owed → 100 ≤ ch.loss →
          ch.state = .filling ∨ ch.state = .playing →
        ∃ t, exec (.fieldFrameArrival frame) s = .next t ∧ s.changesOnly t [.li, .plt, .tru, .fb, .cp, .owed] ∧ s.queueOnly t
          ∧ (∀ m, m ≠ c → t.chan m = s.chan m) ∧ t.owed = s.owed.erase (.fieldLoss c)
          ∧ t.chan c = { ch with state := .filling, resync := false, expected := frame.number, offset := 0, queue := [f],
                                 last := zeroBlock, loss := 0, openTalk := .none }
          ∧ t.cp = s.told [.fieldState c ch.state .lost ch.expected .loss, .fieldState c .lost .filling frame.number .firstFrame])
      ∧ (frame.good = true → frame.length = 965 → c < 2 → frame.flags % 4 = c + 1 → Due.fieldLoss c ∉ s.owed →
        ∃ t, exec (.fieldFrameArrival frame) s = .next t ∧ s.changesOnly t [.li, .plt, .tru, .fb, .cp] ∧ s.queueOnly t
          ∧ (∀ m, m ≠ c → t.chan m = s.chan m) ∧ t.fb = { s.fb with chans := t.fb.chans }
          ∧ (ch.state = .idle ∨ ch.state = .lost →
              t.chan c = { ch with state := .filling, resync := false, expected := frame.number, offset := 0, queue := [f],
                                   loss := 0 }
                ∧ t.cp = s.told [.fieldState c ch.state .filling frame.number .firstFrame])
          ∧ (ch.state = .filling ∨ ch.state = .playing → 32768 ≤ d →
              t = s.modChan c fun x => { x with late := min (x.late + 1) 65535 })
          ∧ (ch.state = .playing → d = 0 → 0 < ch.offset →
              t = s.modChan c fun x => { x with late := min (x.late + 1) 65535 })
          ∧ (ch.state = .filling → 8 ≤ d → d < 32768 →
              t = s.modChan c fun x => { x with
                expected := frame.number, offset := 0, queue := [f], loss := 0, resyncs := min (x.resyncs + 1) 65535 })
          ∧ (ch.state = .playing → 8 ≤ d → d < 32768 →
              t.chan c = { ch with state := .filling, resync := true, expected := frame.number, offset := 0, queue := [f],
                                   last := zeroBlock, loss := 0, resyncs := min (ch.resyncs + 1) 65535 }
                ∧ ((s.source (2 + c)).need = true ∨ (s.openTalkCfg c).count = 0 →
                    t.cp = s.told [.fieldState c .playing .filling frame.number .resync]))
          ∧ (ch.state = .filling ∨ ch.state = .playing ∧ (0 < d ∨ ch.offset = 0) → d < 8 → own →
              t = s.modChan c fun x => { x with duplicate := min (x.duplicate + 1) 65535 })
          ∧ (ch.state = .playing → d < 8 → 0 < d ∨ ch.offset = 0 → ¬own →
              t = s.modChan c fun x => { x with queue := insertFrame x.expected f x.queue, loss := 0 })
          ∧ (ch.state = .filling → d < 8 → ¬own →
              (ch.queue.length + 1 < s.cfg.station.targetFill →
                t = s.modChan c fun x => { x with queue := insertFrame x.expected f x.queue, loss := 0 })
              ∧ (s.cfg.station.targetFill ≤ ch.queue.length + 1 →
                (t.chan c).state = .playing ∧ (t.chan c).queue = insertFrame ch.expected f ch.queue
                  ∧ (t.chan c).offset = 0 ∧ (t.chan c).last = zeroBlock ∧ (t.chan c).resync = false
                  ∧ ((s.openTalkCfg c).count ≠ 0 → (t.source (2 + c)).need = true
                      ∧ (t.chan c).openTalk ≠ .none)))))

/-- OUTPUT_SAMPLE_DUE hands each local output in use the oldest sample of its playout buffer, or 0 where the buffer is empty, the feed is not
in use or the line state is OFFLINE. AUDIO_INPUT_SAMPLED puts one sample behind the 48 most recent of each input, and the oldest leaves.

Outbound framing: without it a block handed by F4 or F5 goes nowhere. With it the block of a RETURN feed is narrowed and gathered for channel A or
B. The position completes when every present channel has its block, and the fifth makes a frame of the gathered samples, 240 zeros for a channel
that is not present, with the next number modulo 65536. The frame is sent; behind a frame being sent it waits, and replaces one that waits, which
is counted as a drop, up to 65535 (log 10). -/
def Obligations.SamplesOutAndIn : Prop :=
  (∀ (s : State) (p a b : Sample),
    (∃ t, exec .outputSampleDue s = .next t ∧ s.changesOnly t [.mx] ∧ t.mx.outputs.length = 4
      ∧ t.mx = { s.mx with outputs := t.mx.outputs, mixes := t.mx.mixes }
      ∧ (∀ i, i < 4 → t.mx.outputs.getD i 0 =
          if s.li.lineState = .offline ∨ (s.feedCfg i).type = 0 then 0 else (s.mix i).playout.headD 0)
      ∧ (∀ i, i < 4 → t.mix i = { s.mix i with playout := (s.mix i).playout.tail })
      ∧ ∀ i, 4 ≤ i → i < 6 → t.mix i = s.mix i)
    ∧ (s.mx.localRun.length = 48 → s.vd.micA.length = 48 → s.vd.micB.length = 48 →
      exec (.audioInputSampled p a b) s = .next { s with
        mx := { s.mx with localRun := s.mx.localRun.tail ++ [p] }
        vd := { s.vd with micA := s.vd.micA.tail ++ [a], micB := s.vd.micB.tail ++ [b] } }))
  ∧ (∀ (s : State) (c : Nat) (block : Block), c < 2 → block.length = 48 →
    let presentA := (s.feedCfg 4).type = 3
    let presentB := (s.feedCfg 5).type = 3
    let samples := block.map fun x => max (-32768) (min 32767 ((x + 128) / 256))
    let a := if c = 0 then s.fb.gatherA ++ samples else s.fb.gatherA
    let b := if c = 1 then s.fb.gatherB ++ samples else s.fb.gatherB
    let done := (presentA → 48 * (s.fb.gatherPos + 1) ≤ a.length) ∧ (presentB → 48 * (s.fb.gatherPos + 1) ≤ b.length)
    let zeros := List.replicate 240 0
    let frame : OutFrame :=
      ⟨s.fb.frameNo, presentA, presentB, if presentA then a else zeros, if presentB then b else zeros⟩
    let next := { s.fb with frameNo := (s.fb.frameNo + 1) % 65536, gatherPos := 0, gatherA := [], gatherB := [] }
    (s.fb.framing = false → s.gather c block = s)
    ∧ (s.fb.framing = true → (s.feedCfg (4 + c)).type = 3 →
      (¬done → s.gather c block = { s with fb := { s.fb with gatherA := a, gatherB := b } })
      ∧ (done → s.fb.gatherPos < 4 →
          s.gather c block = { s with fb := { s.fb with gatherA := a, gatherB := b, gatherPos := s.fb.gatherPos + 1 } })
      ∧ (done → 4 ≤ s.fb.gatherPos →
        (s.fb.sending = none → s.gather c block = { s with fb := { next with sending := some frame } })
        ∧ (s.fb.sending ≠ none → s.fb.hold = none → s.gather c block = { s with fb := { next with hold := some frame } })
        ∧ (s.fb.sending ≠ none → s.fb.hold ≠ none →
            s.gather c block = { s with fb := { next with hold := some frame, drops := min (s.fb.drops + 1) 65535 } }))))
  ∧ ∀ (s : State) (pairs : List (Block × Block)), pairs.length = 5 → (∀ x ∈ pairs, x.1.length = 48 ∧ x.2.length = 48) →
    s.fb.framing = true → s.fb.gatherPos = 0 → s.fb.gatherA = [] → s.fb.gatherB = [] → s.fb.sending = none →
    (s.feedCfg 4).type = 3 → (s.feedCfg 5).type = 3 →
    let narrowed := fun x : Sample => max (-32768) (min 32767 ((x + 128) / 256))
    let t := pairs.foldl (fun s x => (s.gather 0 x.1).gather 1 x.2) s
    t.fb = { s.fb with
      frameNo := (s.fb.frameNo + 1) % 65536
      sending := some ⟨s.fb.frameNo, true, true,
        pairs.flatMap fun x => x.1.map narrowed, pairs.flatMap fun x => x.2.map narrowed⟩ }

/-- The mix of a feed in use at an opening. Its level, its talk-dim and the dim of that level give the code of the programme, full cut at level
7, at a dim of 255 and at codes below zero. Each multiplier goes from the value it holds to its ramp's end. The programme block is the local
one, or that of the lane chosen for the programme, and a voice's that of its entry's memo playback or lane: the samples of a slot heard in the
cycle before with a good check, of that holder and source, not quiet, widened in DENSE, in ACTIVE (log 25); else zeros. The sum of 48 samples
is exact, of the terms floor((x · k + 8192) / 16384) of the programme and the audible entries and of the tone. It is clamped to 24 bits, and
the clip flag is set just where that changes a sample. The block goes to the playout buffer, whose last 96 samples stay, or to the bridge. The
multipliers stay with the feed and with the entries heard, and those of the others are dropped.

CYCLE_OPENING does this to every feed in use, after the cycle is counted, the local block is taken and, in ACTIVE, the memo unit has read: playout,
clip flag and multipliers of the feed and of its entries are then those of the mix. It is said where no other step of the opening touches the feed:
every due step is left to its command, and no key is of the PIN-LEVEL kind. -/
def Obligations.MixOfAFeed : Prop :=
  (∀ (s : State) (i : Nat), Sizes s → EntryLaw s → i < 6 →
    let c := s.feedCfg i
    let f := s.feed i
    let heard := if c.type = 2 then (if f.exclusive then f.admitted.filter fun e => e.level == 7 else f.admitted)
      else f.stack.getLast?.toList
    let level := if c.type = 2 ∧ f.exclusive = true then 7 else heard.foldl (fun top e => max top e.level) 0
    let talk := if (c.dimSource = 1 ∧ (s.source 0).need = true) ∨ (c.dimSource = 2 ∧ (s.source 1).need = true) then c.talkDim
      else 0
    let dim := c.dims.getD (level - 1) 0
    let code := if level = 0 then c.progGain - talk else if 7 ≤ level ∨ dim = 255 then 0 else c.progGain - dim - talk
    let held := (s.mix i).prog.getD 0
    let stop := rampEnd c.ramp held (gain code)
    let voiceStop := fun e : Entry => rampEnd c.ramp (e.voice.getD 0) (gain (c.talkGain - talk))
    let samples := fun (l : Nat) (fits : Slot → Bool) =>
      match s.mx.store.getD l none with
      | some x =>
        if s.li.lineState = .active ∧ x.good = true ∧ x.cycle + 1 = s.mx.cycle ∧ x.slot.quiet = false ∧ fits x.slot = true then
          (if s.li.strapOrg = 1 then toBlock x.slot.samples else (toBlock x.slot.samples).map fun v => v * 256)
        else zeroBlock
      | none => zeroBlock
    let lane := if 1 ≤ c.programme ∧ c.programme ≤ 8 then s.programmeLane c.programme else none
    let programme :=
      match lane with
      | some (h, l) => samples l fun t => t.holder == h && t.source == 4 && t.programme == c.programme
      | none => if c.programme = 15 then s.mx.localBlock else zeroBlock
    let voice := fun e : Entry =>
      if e.chain = [] then samples e.lane fun t => t.holder == e.talker && t.source == e.source else e.played.getD zeroBlock
    let term := fun (b : Block) (start stop n : Nat) => (b.at n * rampAt start stop n + 8192) / 16384
    let tone := toneSample c ((1048576 * (gain c.toneGain : Int) + 8192) / 16384) (s.tone i)
    let sum := fun n => term programme held stop n
      + (heard.map fun e => term (voice e) (e.voice.getD 0) (voiceStop e) n).sum + tone n
    let out := (List.range 48).map fun n => max (-8388608) (min 8388607 (sum n))
    let drop := fun e : Entry => { e with voice := if e ∈ heard then some (voiceStop e) else none }
    let t := s.mixFeed i
    s.changesOnly t [.cia, .mx, .tcu, .fb] ∧ (∀ j, j ≠ i → t.mix j = s.mix j ∧ t.feed j = s.feed j ∧ t.tone j = s.tone j)
      ∧ (i < 4 → (t.mix i).playout = ((s.mix i).playout ++ out).drop ((s.mix i).playout.length + 48 - 96) ∧ t.fb = s.fb)
      ∧ (4 ≤ i → (t.mix i).playout = (s.mix i).playout ∧ t.fb = (s.gather (i - 4) out).fb)
      ∧ ((t.mix i).clip = true ↔ (s.mix i).clip = true ∨ ∃ n, n < 48 ∧ (sum n < -8388608 ∨ 8388607 < sum n))
      ∧ (t.mix i).prog = some stop ∧ ((t.mix i).absent = true ↔ 1 ≤ c.programme ∧ c.programme ≤ 8 ∧ lane = none)
      ∧ t.feed i = { f with stack := f.stack.map drop, admitted := f.admitted.map drop, deferred := f.deferred.map drop }
      ∧ t.tone i = (s.tone i).map fun x => { x with mixes := x.mixes + 1, samples := x.samples + 48 })
  ∧ ∀ (s : State) (pins : List KeyLevel) (apart : List DueKind) (i : Nat), s.owed = [] → Sizes s → EntryLaw s → ArbiterLaw s → MemoLaw s →
    i < 6 → usedFeed (s.feedCfg i) = true → s.li.lineState ≠ .offline → (s.li.lineState = .leaving → s.li.leavingCount < 19) →
    (∀ d : Due, d.kind ∈ apart) → (∀ k, k < 12 → (s.keyCfg k).kind ≠ 1) →
    let o := { s with mx := { s.mx with cycle := s.mx.cycle + 1, localBlock := toBlock s.mx.localRun } }
    let read := if s.li.lineState = .active then (o.clearPlayed i).readPass i else o.clearPlayed i
    let mixed := read.mixFeed i
    ∃ t, exec (.cycleOpening pins apart) s = .next t ∧ t.mix i = mixed.mix i
      ∧ (t.feed i).stack = (mixed.feed i).stack ∧ (t.feed i).admitted = (mixed.feed i).admitted


/-- Every step keeps the tables at their sizes, so that every station, lane, source, key, tag, feed, channel and clock number has its record,
and keeps the playout buffers within 96 samples and every sample there and at the outputs within 24 bits. -/
def Obligations.TablesAndOutputsKept : Prop :=
  ∀ s t : State, step s = .next t → (Sizes s → Sizes t) ∧ (OutputLaw s → OutputLaw t)

/-- The event queue. It holds at most 32 entries, and a full one ends in an OVERFLOW: every step keeps this. An event that arrives with 30
entries or fewer is appended; with 31 or more it is counted in the newest entry, up to 65535, if that is an OVERFLOW; else, with 31, an
OVERFLOW of count 1 takes its place. A command that leads to OFFLINE leaves LINE-STATE alone in the queue. -/
def Obligations.EventQueueLaw : Prop :=
  (∀ s t : State, EventLaw s → step s = .next t → EventLaw t)
    ∧ (∀ (s : State) (e : Event),
      (s.cp.events.length ≤ 30 → (s.raise e).cp.events = s.cp.events ++ [e])
      ∧ (∀ older n, s.cp.events = older ++ [.overflow n] → 31 ≤ s.cp.events.length →
          (s.raise e).cp.events = older ++ [.overflow (min (n + 1) 65535)])
      ∧ (s.cp.events.length = 31 → s.cp.events.getLast?.any Event.isOverflow = false →
          (s.raise e).cp.events = s.cp.events ++ [.overflow 1]))
    ∧ ∀ (c : Instr) (s t : State), exec c s = .next t → s.li.lineState ≠ .offline → t.li.lineState = .offline →
        (∀ number org, c ≠ .hardwareReset number org) → ∃ old, t.cp.events = [.lineState old .offline none]

/-- Every step keeps the outbound message queue within 16 messages, 12 of them outside the reply class, in falling order of urgency, with one
message locked just while it is driven; and keeps the outstanding request entries and ISSUED records together within six. -/
def Obligations.QueueAndRequestLaws : Prop :=
  ∀ s t : State, step s = .next t → (QueueLaw s → QueueLaw t) ∧ (RequestLaw s → RequestLaw t)

/-- Every command but HARDWARE_RESET makes a change of line state that the line states allow, or none; it keeps the straps, never turns the
microsecond count back, and leaves the stored configuration but where START stores one and OFFLINE discards it. In every step, a station that
is OFFLINE, in MISMATCH or SILENCED drives nothing and marks nothing, and outside ACTIVE and LEAVING the message queue is empty. -/
def Obligations.LineStateMoves : Prop :=
  (∀ (c : Instr) (s t : State), exec c s = .next t → (∀ number org, c ≠ .hardwareReset number org) →
    t.li.lineState ∈ lineMoves s.li.lineState
      ∧ t.li.strapNumber = s.li.strapNumber ∧ t.li.strapOrg = s.li.strapOrg ∧ s.li.micros ≤ t.li.micros
      ∧ (t.cp.config = s.cp.config
          ∨ (s.li.lineState = .offline ∧ t.li.lineState = .listening ∧ ∃ block pins, c = .start block pins)
          ∨ (t.li.lineState = .offline ∧ t.cp.config = none)))
    ∧ ∀ s t : State, QuietLaw s → step s = .next t → QuietLaw t

/-- Every step keeps the law of the device on lanes, that a lane CLAIMING or MINE is the lane of its source's phase, so that a source has at
most one; and, with the tables at their sizes and the waiting commands lawful, the law on presence, that every holder of a HELD lane and
every talker of an entry with a tag is the station itself or a PRESENT peer (R24), and that they, the talkers of draining entries and, outside
OFFLINE, the station itself have station numbers, 1–62. -/
def Obligations.LaneAndPresenceLaws : Prop :=
  ∀ s t : State, step s = .next t →
    (LaneLaw s → LaneLaw t)
      ∧ (Sizes s → (∀ c ∈ s.pending, lawful c = true) → PresenceLaw s → PresenceLaw t)

/-- Every step keeps the entries of every feed in order: distinct talkers and sources, the levels of a CUT-IN feed's stack rising from bottom
to top, and no stack in a MIX feed nor admitted set in a CUT-IN feed. -/
def Obligations.EntriesKeptInOrder : Prop :=
  ∀ s t : State, EntryLaw s → step s = .next t → EntryLaw t

/-- Every step keeps the laws of the device on floors and on the deferred lists, and the places of every feed: no entry is below its feed's
effective floor, the held entries stand by rank and each of them waits for a reason, and stack, admitted set, deferred list, tags, on-air and
call records are within their places, with one level-7 entry admitted at most. -/
def Obligations.ArbiterLawKept : Prop :=
  ∀ s t : State, Sizes s → EntryLaw s → ArbiterLaw s → step s = .next t → ArbiterLaw t

/-- Every step keeps the law of the device on memo: every channel that is not IDLE belongs to the chain of one entry of one feed, a chain is a
run of consecutive channels in the state of its entry's place, and no channel holds more blocks than its capacity. With it the channels of a
started station together hold at most 4096 blocks. -/
def Obligations.MemoLawKept : Prop :=
  (∀ s t : State, Sizes s → EntryLaw s → MemoLaw s → step s = .next t → MemoLaw t)
    ∧ ∀ s : State, MemoLaw s → s.cp.config ≠ none → ((List.range 4).map fun c => (s.channel c).blocks.length).sum ≤ 4096

/-- Every step keeps each RUNNING cue clock the only one of its origin, destination and feed, and, with the waiting commands well formed, the
frames of each field queue in rising order within 7 of the frame due. -/
def Obligations.ClocksAndFieldQueuesKept : Prop :=
  ∀ s t : State, step s = .next t →
    (ClockLaw s → ClockLaw t) ∧ ((∀ c ∈ s.pending, c.wellFormed = true) → FieldLaw s → FieldLaw t)

/-- What the formats write they read back: the bits of every message, mark and lane slot whose fields fit, and the bytes of every field frame,
are heard as that item with a good check. -/
def Obligations.FormatsRoundTrip : Prop :=
  (∀ (own : Bool) (sender : Nat) (m : Message),
    let i := m.heard ⟨true, own, 7 - m.urgency, sender, m.kindCode, m.bodyLength⟩
    sender < 64 → i.wellFormed = true → hearMessage own (m.bits sender) = some i)
    ∧ (∀ (own : Bool) (number org : Nat) (apart : List DueKind), number < 64 → org < 4 →
      hearMark own (markBits number org) apart = some (.markReceived ⟨true, own, number, org⟩ apart))
    ∧ (∀ (org lane : Nat) (own : Bool) (t : Slot), t.wellFormed = true → (org = 1 ∨ t.samples.all fits16 = true) →
      hearSlot org lane own (t.bits org) = some (.laneSlotReceived lane true own t))
    ∧ ∀ (n : Nat) (presentA presentB : Bool) (a b : List Sample), n < 65536 → a.length = 240 → b.length = 240 →
      a.all fits16 = true → b.all fits16 = true →
      receiveFrame (frameBytes n presentA presentB a b) =
        .fieldFrameArrival ⟨965, true, n, presentA.toNat + 2 * presentB.toNat, a, b⟩

/-- The multipliers. m(0) is 0 and m(g), for g of 1 to 127, is 16384 × 10^((g − 103)/40) rounded half up, here to the 40th power. The end of a
ramp is its target where the code is 0 or the target is within 256 for each unit of the code, and else one such step nearer. Every sample of a
ramp lies between its ends, the samples move one way, and the last is the end (R140). -/
def Obligations.GainsAndRamps : Prop :=
  gain 0 = 0 ∧ gain 103 = 16384
    ∧ (∀ g, 1 ≤ g → g ≤ 127 → 1 ≤ gain g ∧ gain g ≤ 65226
        ∧ (2 * gain g - 1) ^ 40 * 10 ^ 103 ≤ (2 * 16384) ^ 40 * 10 ^ g
        ∧ (2 * 16384) ^ 40 * 10 ^ g < (2 * gain g + 1) ^ 40 * 10 ^ 103)
    ∧ (∀ code a t : Nat, let b := rampEnd code a t
      (code = 0 ∨ (a ≤ t + 256 * code ∧ t ≤ a + 256 * code) → b = t)
        ∧ (code ≠ 0 → a + 256 * code < t → b = a + 256 * code)
        ∧ (code ≠ 0 → t + 256 * code < a → b + 256 * code = a))
    ∧ ∀ a b n : Nat, n < 48 →
      min (a : Int) b ≤ rampAt a b n ∧ rampAt a b n ≤ max (a : Int) b ∧ rampAt a b 47 = b
        ∧ (a ≤ b → n < 47 → rampAt a b n ≤ rampAt a b (n + 1))
        ∧ (b ≤ a → n < 47 → rampAt a b (n + 1) ≤ rampAt a b n)

/-- Concealment. A playout step that does not find frame E at the head of the queue makes the last block with each sample halved and rounded
toward zero the last block; one that finds it makes the frame's block the last one. Sixteen concealed blocks in a run are zeros, fifteen where
no sample is negative. The last block is zeros on entry to PLAYING, and the detector is handed the last block widened by 256. -/
def Obligations.ConcealmentFades : Prop :=
  (∀ ch : Chan, (∀ f ∈ ch.queue.head?, f.number ≠ ch.expected) → ch.played.last = ch.last.map fun x => x.tdiv 2)
    ∧ (∀ (ch : Chan) (f : HeldFrame) (rest : List HeldFrame), ch.queue = f :: rest → f.number = ch.expected →
        f.samples.length = 240 → ch.offset ≤ 4 → ch.played.last = (f.samples.drop (48 * ch.offset)).take 48)
    ∧ conceal [1000, -7, 1, -1, -32768] = [500, -3, 0, 0, -16384]
    ∧ (∀ b : Block, b.all fits16 = true →
        conceal^[16] b = b.map (fun _ => 0) ∧ ((∀ x ∈ b, 0 ≤ x) → conceal^[15] b = b.map fun _ => 0))
    ∧ conceal^[14] [32767] = [1] ∧ conceal^[15] [-32768] = [-1]
    ∧ ∀ (s : State) (c : Nat), Sizes s → c < 2 →
        ((s.fill c).chan c).last = zeroBlock
          ∧ (s.li.lineState = .active → (s.chan c).plays = true → s.fieldBlock c = (s.chan c).last.map fun x => x * 256)

/-- The voice detector on one block: the envelope rises at once to a peak at or above it and else falls by a sixteenth, rounded down. With VOX
off the source is VOICE with count 0. With VOX on, a QUIET source is VOICE from an envelope at or above 16384 × 2^c, c its threshold code, and
else stays QUIET; a VOICE source below half of that counts toward its hang, and at or above it has count 0 (R153). That it is still VOICE when
its count reaches its hang, and is made QUIET by HANG_EXPIRY, is the split of log 4. -/
def Obligations.VoiceDetectorRules : Prop :=
  ∀ (v : Vox) (c : SourceCfg) (block : Block), let w := v.evaluated c block
    let onset := 16384 * 2 ^ c.threshold
    (∀ x ∈ block, x.natAbs ≤ peak block) ∧ (block ≠ [] → ∃ x ∈ block, x.natAbs = peak block) ∧ w.block = block
      ∧ (v.envelope ≤ peak block → w.envelope = peak block)
      ∧ (peak block < v.envelope → w.envelope = v.envelope - v.envelope / 16)
      ∧ (c.vox = 0 → w.voice = true ∧ w.hang = 0)
      ∧ (c.vox ≠ 0 → v.voice = false →
          (onset ≤ w.envelope → w.voice = true ∧ w.hang = 0) ∧ (w.envelope < onset → w.voice = false ∧ w.hang = v.hang))
      ∧ (c.vox ≠ 0 → v.voice = true → w.voice = true
          ∧ (w.envelope < onset / 2 → w.hang = min (v.hang + 1) c.hang) ∧ (onset / 2 ≤ w.envelope → w.hang = 0))

/-- What is not audible is not heard: the sums of a feed's mix do not depend on its deferred list, nor, in a CUT-IN feed, on the entries below
the top of its stack, nor, in a MIX feed that is exclusive, on the admitted entries below level 7, nor on the entries of any other feed. -/
def Obligations.InaudibleEntriesUnheard : Prop :=
  ∀ (s : State) (i : Nat),
    (∀ held, (s.modFeed i fun f => { f with deferred := held }).feedSums i = s.feedSums i)
      ∧ (∀ top lower lower', mixingFeed (s.feedCfg i) = false → (s.feed i).stack = lower ++ [top] →
          (s.modFeed i fun f => { f with stack := lower' ++ [top] }).feedSums i = s.feedSums i)
      ∧ (∀ others, mixingFeed (s.feedCfg i) = true → (s.feed i).exclusive = true →
          (others.filter fun e => e.level == 7) = ((s.feed i).admitted.filter fun e => e.level == 7) →
          (s.modFeed i fun f => { f with admitted := others }).feedSums i = s.feedSums i)
      ∧ ∀ j g, j ≠ i → (s.modFeed j g).feedSums i = s.feedSums i
end

