-- ==== Sys2Proof/Laws/State.lean ====
section
/-! SUPPORT. One lemma per component of the state and writer, each true by unfolding, so that no proof unfolds a record update. -/

namespace Sys2Proof.Machine

/-! ### `State.modLi` -/

@[simp] theorem State.modLi_li (s : State) (f : LineIf → LineIf) : (s.modLi f).li = f s.li := rfl
@[simp] theorem State.modLi_plt (s : State) (f : LineIf → LineIf) : (s.modLi f).plt = s.plt := rfl
@[simp] theorem State.modLi_ku (s : State) (f : LineIf → LineIf) : (s.modLi f).ku = s.ku := rfl
@[simp] theorem State.modLi_tru (s : State) (f : LineIf → LineIf) : (s.modLi f).tru = s.tru := rfl
@[simp] theorem State.modLi_cia (s : State) (f : LineIf → LineIf) : (s.modLi f).cia = s.cia := rfl
@[simp] theorem State.modLi_mu (s : State) (f : LineIf → LineIf) : (s.modLi f).mu = s.mu := rfl
@[simp] theorem State.modLi_mx (s : State) (f : LineIf → LineIf) : (s.modLi f).mx = s.mx := rfl
@[simp] theorem State.modLi_vd (s : State) (f : LineIf → LineIf) : (s.modLi f).vd = s.vd := rfl
@[simp] theorem State.modLi_tcu (s : State) (f : LineIf → LineIf) : (s.modLi f).tcu = s.tcu := rfl
@[simp] theorem State.modLi_fb (s : State) (f : LineIf → LineIf) : (s.modLi f).fb = s.fb := rfl
@[simp] theorem State.modLi_cp (s : State) (f : LineIf → LineIf) : (s.modLi f).cp = s.cp := rfl
@[simp] theorem State.modLi_owed (s : State) (f : LineIf → LineIf) : (s.modLi f).owed = s.owed := rfl
@[simp] theorem State.modLi_pending (s : State) (f : LineIf → LineIf) : (s.modLi f).pending = s.pending := rfl

/-! ### `State.modPeer` -/

@[simp] theorem State.modPeer_li (s : State) (n : Nat) (f : Peer → Peer) : (s.modPeer n f).li = s.li := rfl
@[simp] theorem State.modPeer_plt (s : State) (n : Nat) (f : Peer → Peer) : (s.modPeer n f).plt = { s.plt with peers := s.plt.peers.modify (n - 1) f } := rfl
@[simp] theorem State.modPeer_ku (s : State) (n : Nat) (f : Peer → Peer) : (s.modPeer n f).ku = s.ku := rfl
@[simp] theorem State.modPeer_tru (s : State) (n : Nat) (f : Peer → Peer) : (s.modPeer n f).tru = s.tru := rfl
@[simp] theorem State.modPeer_cia (s : State) (n : Nat) (f : Peer → Peer) : (s.modPeer n f).cia = s.cia := rfl
@[simp] theorem State.modPeer_mu (s : State) (n : Nat) (f : Peer → Peer) : (s.modPeer n f).mu = s.mu := rfl
@[simp] theorem State.modPeer_mx (s : State) (n : Nat) (f : Peer → Peer) : (s.modPeer n f).mx = s.mx := rfl
@[simp] theorem State.modPeer_vd (s : State) (n : Nat) (f : Peer → Peer) : (s.modPeer n f).vd = s.vd := rfl
@[simp] theorem State.modPeer_tcu (s : State) (n : Nat) (f : Peer → Peer) : (s.modPeer n f).tcu = s.tcu := rfl
@[simp] theorem State.modPeer_fb (s : State) (n : Nat) (f : Peer → Peer) : (s.modPeer n f).fb = s.fb := rfl
@[simp] theorem State.modPeer_cp (s : State) (n : Nat) (f : Peer → Peer) : (s.modPeer n f).cp = s.cp := rfl
@[simp] theorem State.modPeer_owed (s : State) (n : Nat) (f : Peer → Peer) : (s.modPeer n f).owed = s.owed := rfl
@[simp] theorem State.modPeer_pending (s : State) (n : Nat) (f : Peer → Peer) : (s.modPeer n f).pending = s.pending := rfl

/-! ### `State.setLane` -/

@[simp] theorem State.setLane_li (s : State) (l : Nat) (r : Lane) : (s.setLane l r).li = s.li := rfl
@[simp] theorem State.setLane_plt (s : State) (l : Nat) (r : Lane) : (s.setLane l r).plt = { s.plt with lanes := s.plt.lanes.set l r } := rfl
@[simp] theorem State.setLane_ku (s : State) (l : Nat) (r : Lane) : (s.setLane l r).ku = s.ku := rfl
@[simp] theorem State.setLane_tru (s : State) (l : Nat) (r : Lane) : (s.setLane l r).tru = s.tru := rfl
@[simp] theorem State.setLane_cia (s : State) (l : Nat) (r : Lane) : (s.setLane l r).cia = s.cia := rfl
@[simp] theorem State.setLane_mu (s : State) (l : Nat) (r : Lane) : (s.setLane l r).mu = s.mu := rfl
@[simp] theorem State.setLane_mx (s : State) (l : Nat) (r : Lane) : (s.setLane l r).mx = s.mx := rfl
@[simp] theorem State.setLane_vd (s : State) (l : Nat) (r : Lane) : (s.setLane l r).vd = s.vd := rfl
@[simp] theorem State.setLane_tcu (s : State) (l : Nat) (r : Lane) : (s.setLane l r).tcu = s.tcu := rfl
@[simp] theorem State.setLane_fb (s : State) (l : Nat) (r : Lane) : (s.setLane l r).fb = s.fb := rfl
@[simp] theorem State.setLane_cp (s : State) (l : Nat) (r : Lane) : (s.setLane l r).cp = s.cp := rfl
@[simp] theorem State.setLane_owed (s : State) (l : Nat) (r : Lane) : (s.setLane l r).owed = s.owed := rfl
@[simp] theorem State.setLane_pending (s : State) (l : Nat) (r : Lane) : (s.setLane l r).pending = s.pending := rfl

/-! ### `State.modSource` -/

@[simp] theorem State.modSource_li (s : State) (n : Nat) (f : SourceRec → SourceRec) : (s.modSource n f).li = s.li := rfl
@[simp] theorem State.modSource_plt (s : State) (n : Nat) (f : SourceRec → SourceRec) : (s.modSource n f).plt = { s.plt with sources := s.plt.sources.modify n f } := rfl
@[simp] theorem State.modSource_ku (s : State) (n : Nat) (f : SourceRec → SourceRec) : (s.modSource n f).ku = s.ku := rfl
@[simp] theorem State.modSource_tru (s : State) (n : Nat) (f : SourceRec → SourceRec) : (s.modSource n f).tru = s.tru := rfl
@[simp] theorem State.modSource_cia (s : State) (n : Nat) (f : SourceRec → SourceRec) : (s.modSource n f).cia = s.cia := rfl
@[simp] theorem State.modSource_mu (s : State) (n : Nat) (f : SourceRec → SourceRec) : (s.modSource n f).mu = s.mu := rfl
@[simp] theorem State.modSource_mx (s : State) (n : Nat) (f : SourceRec → SourceRec) : (s.modSource n f).mx = s.mx := rfl
@[simp] theorem State.modSource_vd (s : State) (n : Nat) (f : SourceRec → SourceRec) : (s.modSource n f).vd = s.vd := rfl
@[simp] theorem State.modSource_tcu (s : State) (n : Nat) (f : SourceRec → SourceRec) : (s.modSource n f).tcu = s.tcu := rfl
@[simp] theorem State.modSource_fb (s : State) (n : Nat) (f : SourceRec → SourceRec) : (s.modSource n f).fb = s.fb := rfl
@[simp] theorem State.modSource_cp (s : State) (n : Nat) (f : SourceRec → SourceRec) : (s.modSource n f).cp = s.cp := rfl
@[simp] theorem State.modSource_owed (s : State) (n : Nat) (f : SourceRec → SourceRec) : (s.modSource n f).owed = s.owed := rfl
@[simp] theorem State.modSource_pending (s : State) (n : Nat) (f : SourceRec → SourceRec) : (s.modSource n f).pending = s.pending := rfl

/-! ### `State.modKey` -/

@[simp] theorem State.modKey_li (s : State) (k : Nat) (f : Key → Key) : (s.modKey k f).li = s.li := rfl
@[simp] theorem State.modKey_plt (s : State) (k : Nat) (f : Key → Key) : (s.modKey k f).plt = s.plt := rfl
@[simp] theorem State.modKey_ku (s : State) (k : Nat) (f : Key → Key) : (s.modKey k f).ku = { s.ku with keys := s.ku.keys.modify k f } := rfl
@[simp] theorem State.modKey_tru (s : State) (k : Nat) (f : Key → Key) : (s.modKey k f).tru = s.tru := rfl
@[simp] theorem State.modKey_cia (s : State) (k : Nat) (f : Key → Key) : (s.modKey k f).cia = s.cia := rfl
@[simp] theorem State.modKey_mu (s : State) (k : Nat) (f : Key → Key) : (s.modKey k f).mu = s.mu := rfl
@[simp] theorem State.modKey_mx (s : State) (k : Nat) (f : Key → Key) : (s.modKey k f).mx = s.mx := rfl
@[simp] theorem State.modKey_vd (s : State) (k : Nat) (f : Key → Key) : (s.modKey k f).vd = s.vd := rfl
@[simp] theorem State.modKey_tcu (s : State) (k : Nat) (f : Key → Key) : (s.modKey k f).tcu = s.tcu := rfl
@[simp] theorem State.modKey_fb (s : State) (k : Nat) (f : Key → Key) : (s.modKey k f).fb = s.fb := rfl
@[simp] theorem State.modKey_cp (s : State) (k : Nat) (f : Key → Key) : (s.modKey k f).cp = s.cp := rfl
@[simp] theorem State.modKey_owed (s : State) (k : Nat) (f : Key → Key) : (s.modKey k f).owed = s.owed := rfl
@[simp] theorem State.modKey_pending (s : State) (k : Nat) (f : Key → Key) : (s.modKey k f).pending = s.pending := rfl

/-! ### `State.modTru` -/

@[simp] theorem State.modTru_li (s : State) (f : Tru → Tru) : (s.modTru f).li = s.li := rfl
@[simp] theorem State.modTru_plt (s : State) (f : Tru → Tru) : (s.modTru f).plt = s.plt := rfl
@[simp] theorem State.modTru_ku (s : State) (f : Tru → Tru) : (s.modTru f).ku = s.ku := rfl
@[simp] theorem State.modTru_tru (s : State) (f : Tru → Tru) : (s.modTru f).tru = f s.tru := rfl
@[simp] theorem State.modTru_cia (s : State) (f : Tru → Tru) : (s.modTru f).cia = s.cia := rfl
@[simp] theorem State.modTru_mu (s : State) (f : Tru → Tru) : (s.modTru f).mu = s.mu := rfl
@[simp] theorem State.modTru_mx (s : State) (f : Tru → Tru) : (s.modTru f).mx = s.mx := rfl
@[simp] theorem State.modTru_vd (s : State) (f : Tru → Tru) : (s.modTru f).vd = s.vd := rfl
@[simp] theorem State.modTru_tcu (s : State) (f : Tru → Tru) : (s.modTru f).tcu = s.tcu := rfl
@[simp] theorem State.modTru_fb (s : State) (f : Tru → Tru) : (s.modTru f).fb = s.fb := rfl
@[simp] theorem State.modTru_cp (s : State) (f : Tru → Tru) : (s.modTru f).cp = s.cp := rfl
@[simp] theorem State.modTru_owed (s : State) (f : Tru → Tru) : (s.modTru f).owed = s.owed := rfl
@[simp] theorem State.modTru_pending (s : State) (f : Tru → Tru) : (s.modTru f).pending = s.pending := rfl

/-! ### `State.setPath` -/

@[simp] theorem State.setPath_li (s : State) (g : Nat) (p : Option Path) : (s.setPath g p).li = s.li := rfl
@[simp] theorem State.setPath_plt (s : State) (g : Nat) (p : Option Path) : (s.setPath g p).plt = s.plt := rfl
@[simp] theorem State.setPath_ku (s : State) (g : Nat) (p : Option Path) : (s.setPath g p).ku = s.ku := rfl
@[simp] theorem State.setPath_tru (s : State) (g : Nat) (p : Option Path) : (s.setPath g p).tru = { s.tru with paths := s.tru.paths.set g p } := rfl
@[simp] theorem State.setPath_cia (s : State) (g : Nat) (p : Option Path) : (s.setPath g p).cia = s.cia := rfl
@[simp] theorem State.setPath_mu (s : State) (g : Nat) (p : Option Path) : (s.setPath g p).mu = s.mu := rfl
@[simp] theorem State.setPath_mx (s : State) (g : Nat) (p : Option Path) : (s.setPath g p).mx = s.mx := rfl
@[simp] theorem State.setPath_vd (s : State) (g : Nat) (p : Option Path) : (s.setPath g p).vd = s.vd := rfl
@[simp] theorem State.setPath_tcu (s : State) (g : Nat) (p : Option Path) : (s.setPath g p).tcu = s.tcu := rfl
@[simp] theorem State.setPath_fb (s : State) (g : Nat) (p : Option Path) : (s.setPath g p).fb = s.fb := rfl
@[simp] theorem State.setPath_cp (s : State) (g : Nat) (p : Option Path) : (s.setPath g p).cp = s.cp := rfl
@[simp] theorem State.setPath_owed (s : State) (g : Nat) (p : Option Path) : (s.setPath g p).owed = s.owed := rfl
@[simp] theorem State.setPath_pending (s : State) (g : Nat) (p : Option Path) : (s.setPath g p).pending = s.pending := rfl

/-! ### `State.modFeed` -/

@[simp] theorem State.modFeed_li (s : State) (i : Nat) (f : Feed → Feed) : (s.modFeed i f).li = s.li := rfl
@[simp] theorem State.modFeed_plt (s : State) (i : Nat) (f : Feed → Feed) : (s.modFeed i f).plt = s.plt := rfl
@[simp] theorem State.modFeed_ku (s : State) (i : Nat) (f : Feed → Feed) : (s.modFeed i f).ku = s.ku := rfl
@[simp] theorem State.modFeed_tru (s : State) (i : Nat) (f : Feed → Feed) : (s.modFeed i f).tru = s.tru := rfl
@[simp] theorem State.modFeed_cia (s : State) (i : Nat) (f : Feed → Feed) : (s.modFeed i f).cia = { s.cia with feeds := s.cia.feeds.modify i f } := rfl
@[simp] theorem State.modFeed_mu (s : State) (i : Nat) (f : Feed → Feed) : (s.modFeed i f).mu = s.mu := rfl
@[simp] theorem State.modFeed_mx (s : State) (i : Nat) (f : Feed → Feed) : (s.modFeed i f).mx = s.mx := rfl
@[simp] theorem State.modFeed_vd (s : State) (i : Nat) (f : Feed → Feed) : (s.modFeed i f).vd = s.vd := rfl
@[simp] theorem State.modFeed_tcu (s : State) (i : Nat) (f : Feed → Feed) : (s.modFeed i f).tcu = s.tcu := rfl
@[simp] theorem State.modFeed_fb (s : State) (i : Nat) (f : Feed → Feed) : (s.modFeed i f).fb = s.fb := rfl
@[simp] theorem State.modFeed_cp (s : State) (i : Nat) (f : Feed → Feed) : (s.modFeed i f).cp = s.cp := rfl
@[simp] theorem State.modFeed_owed (s : State) (i : Nat) (f : Feed → Feed) : (s.modFeed i f).owed = s.owed := rfl
@[simp] theorem State.modFeed_pending (s : State) (i : Nat) (f : Feed → Feed) : (s.modFeed i f).pending = s.pending := rfl

/-! ### `State.modChannel` -/

@[simp] theorem State.modChannel_li (s : State) (c : Nat) (f : Channel → Channel) : (s.modChannel c f).li = s.li := rfl
@[simp] theorem State.modChannel_plt (s : State) (c : Nat) (f : Channel → Channel) : (s.modChannel c f).plt = s.plt := rfl
@[simp] theorem State.modChannel_ku (s : State) (c : Nat) (f : Channel → Channel) : (s.modChannel c f).ku = s.ku := rfl
@[simp] theorem State.modChannel_tru (s : State) (c : Nat) (f : Channel → Channel) : (s.modChannel c f).tru = s.tru := rfl
@[simp] theorem State.modChannel_cia (s : State) (c : Nat) (f : Channel → Channel) : (s.modChannel c f).cia = s.cia := rfl
@[simp] theorem State.modChannel_mu (s : State) (c : Nat) (f : Channel → Channel) : (s.modChannel c f).mu = { s.mu with channels := s.mu.channels.modify c f } := rfl
@[simp] theorem State.modChannel_mx (s : State) (c : Nat) (f : Channel → Channel) : (s.modChannel c f).mx = s.mx := rfl
@[simp] theorem State.modChannel_vd (s : State) (c : Nat) (f : Channel → Channel) : (s.modChannel c f).vd = s.vd := rfl
@[simp] theorem State.modChannel_tcu (s : State) (c : Nat) (f : Channel → Channel) : (s.modChannel c f).tcu = s.tcu := rfl
@[simp] theorem State.modChannel_fb (s : State) (c : Nat) (f : Channel → Channel) : (s.modChannel c f).fb = s.fb := rfl
@[simp] theorem State.modChannel_cp (s : State) (c : Nat) (f : Channel → Channel) : (s.modChannel c f).cp = s.cp := rfl
@[simp] theorem State.modChannel_owed (s : State) (c : Nat) (f : Channel → Channel) : (s.modChannel c f).owed = s.owed := rfl
@[simp] theorem State.modChannel_pending (s : State) (c : Nat) (f : Channel → Channel) : (s.modChannel c f).pending = s.pending := rfl

/-! ### `State.modMx` -/

@[simp] theorem State.modMx_li (s : State) (f : Mx → Mx) : (s.modMx f).li = s.li := rfl
@[simp] theorem State.modMx_plt (s : State) (f : Mx → Mx) : (s.modMx f).plt = s.plt := rfl
@[simp] theorem State.modMx_ku (s : State) (f : Mx → Mx) : (s.modMx f).ku = s.ku := rfl
@[simp] theorem State.modMx_tru (s : State) (f : Mx → Mx) : (s.modMx f).tru = s.tru := rfl
@[simp] theorem State.modMx_cia (s : State) (f : Mx → Mx) : (s.modMx f).cia = s.cia := rfl
@[simp] theorem State.modMx_mu (s : State) (f : Mx → Mx) : (s.modMx f).mu = s.mu := rfl
@[simp] theorem State.modMx_mx (s : State) (f : Mx → Mx) : (s.modMx f).mx = f s.mx := rfl
@[simp] theorem State.modMx_vd (s : State) (f : Mx → Mx) : (s.modMx f).vd = s.vd := rfl
@[simp] theorem State.modMx_tcu (s : State) (f : Mx → Mx) : (s.modMx f).tcu = s.tcu := rfl
@[simp] theorem State.modMx_fb (s : State) (f : Mx → Mx) : (s.modMx f).fb = s.fb := rfl
@[simp] theorem State.modMx_cp (s : State) (f : Mx → Mx) : (s.modMx f).cp = s.cp := rfl
@[simp] theorem State.modMx_owed (s : State) (f : Mx → Mx) : (s.modMx f).owed = s.owed := rfl
@[simp] theorem State.modMx_pending (s : State) (f : Mx → Mx) : (s.modMx f).pending = s.pending := rfl

/-! ### `State.modMix` -/

@[simp] theorem State.modMix_li (s : State) (i : Nat) (f : Mix → Mix) : (s.modMix i f).li = s.li := rfl
@[simp] theorem State.modMix_plt (s : State) (i : Nat) (f : Mix → Mix) : (s.modMix i f).plt = s.plt := rfl
@[simp] theorem State.modMix_ku (s : State) (i : Nat) (f : Mix → Mix) : (s.modMix i f).ku = s.ku := rfl
@[simp] theorem State.modMix_tru (s : State) (i : Nat) (f : Mix → Mix) : (s.modMix i f).tru = s.tru := rfl
@[simp] theorem State.modMix_cia (s : State) (i : Nat) (f : Mix → Mix) : (s.modMix i f).cia = s.cia := rfl
@[simp] theorem State.modMix_mu (s : State) (i : Nat) (f : Mix → Mix) : (s.modMix i f).mu = s.mu := rfl
@[simp] theorem State.modMix_mx (s : State) (i : Nat) (f : Mix → Mix) : (s.modMix i f).mx = { s.mx with mixes := s.mx.mixes.modify i f } := rfl
@[simp] theorem State.modMix_vd (s : State) (i : Nat) (f : Mix → Mix) : (s.modMix i f).vd = s.vd := rfl
@[simp] theorem State.modMix_tcu (s : State) (i : Nat) (f : Mix → Mix) : (s.modMix i f).tcu = s.tcu := rfl
@[simp] theorem State.modMix_fb (s : State) (i : Nat) (f : Mix → Mix) : (s.modMix i f).fb = s.fb := rfl
@[simp] theorem State.modMix_cp (s : State) (i : Nat) (f : Mix → Mix) : (s.modMix i f).cp = s.cp := rfl
@[simp] theorem State.modMix_owed (s : State) (i : Nat) (f : Mix → Mix) : (s.modMix i f).owed = s.owed := rfl
@[simp] theorem State.modMix_pending (s : State) (i : Nat) (f : Mix → Mix) : (s.modMix i f).pending = s.pending := rfl

/-! ### `State.modVox` -/

@[simp] theorem State.modVox_li (s : State) (n : Nat) (f : Vox → Vox) : (s.modVox n f).li = s.li := rfl
@[simp] theorem State.modVox_plt (s : State) (n : Nat) (f : Vox → Vox) : (s.modVox n f).plt = s.plt := rfl
@[simp] theorem State.modVox_ku (s : State) (n : Nat) (f : Vox → Vox) : (s.modVox n f).ku = s.ku := rfl
@[simp] theorem State.modVox_tru (s : State) (n : Nat) (f : Vox → Vox) : (s.modVox n f).tru = s.tru := rfl
@[simp] theorem State.modVox_cia (s : State) (n : Nat) (f : Vox → Vox) : (s.modVox n f).cia = s.cia := rfl
@[simp] theorem State.modVox_mu (s : State) (n : Nat) (f : Vox → Vox) : (s.modVox n f).mu = s.mu := rfl
@[simp] theorem State.modVox_mx (s : State) (n : Nat) (f : Vox → Vox) : (s.modVox n f).mx = s.mx := rfl
@[simp] theorem State.modVox_vd (s : State) (n : Nat) (f : Vox → Vox) : (s.modVox n f).vd = { s.vd with sources := s.vd.sources.modify n f } := rfl
@[simp] theorem State.modVox_tcu (s : State) (n : Nat) (f : Vox → Vox) : (s.modVox n f).tcu = s.tcu := rfl
@[simp] theorem State.modVox_fb (s : State) (n : Nat) (f : Vox → Vox) : (s.modVox n f).fb = s.fb := rfl
@[simp] theorem State.modVox_cp (s : State) (n : Nat) (f : Vox → Vox) : (s.modVox n f).cp = s.cp := rfl
@[simp] theorem State.modVox_owed (s : State) (n : Nat) (f : Vox → Vox) : (s.modVox n f).owed = s.owed := rfl
@[simp] theorem State.modVox_pending (s : State) (n : Nat) (f : Vox → Vox) : (s.modVox n f).pending = s.pending := rfl

/-! ### `State.setTone` -/

@[simp] theorem State.setTone_li (s : State) (i : Nat) (t : Option Tone) : (s.setTone i t).li = s.li := rfl
@[simp] theorem State.setTone_plt (s : State) (i : Nat) (t : Option Tone) : (s.setTone i t).plt = s.plt := rfl
@[simp] theorem State.setTone_ku (s : State) (i : Nat) (t : Option Tone) : (s.setTone i t).ku = s.ku := rfl
@[simp] theorem State.setTone_tru (s : State) (i : Nat) (t : Option Tone) : (s.setTone i t).tru = s.tru := rfl
@[simp] theorem State.setTone_cia (s : State) (i : Nat) (t : Option Tone) : (s.setTone i t).cia = s.cia := rfl
@[simp] theorem State.setTone_mu (s : State) (i : Nat) (t : Option Tone) : (s.setTone i t).mu = s.mu := rfl
@[simp] theorem State.setTone_mx (s : State) (i : Nat) (t : Option Tone) : (s.setTone i t).mx = s.mx := rfl
@[simp] theorem State.setTone_vd (s : State) (i : Nat) (t : Option Tone) : (s.setTone i t).vd = s.vd := rfl
@[simp] theorem State.setTone_tcu (s : State) (i : Nat) (t : Option Tone) : (s.setTone i t).tcu = { s.tcu with slots := s.tcu.slots.set i t } := rfl
@[simp] theorem State.setTone_fb (s : State) (i : Nat) (t : Option Tone) : (s.setTone i t).fb = s.fb := rfl
@[simp] theorem State.setTone_cp (s : State) (i : Nat) (t : Option Tone) : (s.setTone i t).cp = s.cp := rfl
@[simp] theorem State.setTone_owed (s : State) (i : Nat) (t : Option Tone) : (s.setTone i t).owed = s.owed := rfl
@[simp] theorem State.setTone_pending (s : State) (i : Nat) (t : Option Tone) : (s.setTone i t).pending = s.pending := rfl

/-! ### `State.setClock` -/

@[simp] theorem State.setClock_li (s : State) (c : Nat) (k : Option Clock) : (s.setClock c k).li = s.li := rfl
@[simp] theorem State.setClock_plt (s : State) (c : Nat) (k : Option Clock) : (s.setClock c k).plt = s.plt := rfl
@[simp] theorem State.setClock_ku (s : State) (c : Nat) (k : Option Clock) : (s.setClock c k).ku = s.ku := rfl
@[simp] theorem State.setClock_tru (s : State) (c : Nat) (k : Option Clock) : (s.setClock c k).tru = s.tru := rfl
@[simp] theorem State.setClock_cia (s : State) (c : Nat) (k : Option Clock) : (s.setClock c k).cia = s.cia := rfl
@[simp] theorem State.setClock_mu (s : State) (c : Nat) (k : Option Clock) : (s.setClock c k).mu = s.mu := rfl
@[simp] theorem State.setClock_mx (s : State) (c : Nat) (k : Option Clock) : (s.setClock c k).mx = s.mx := rfl
@[simp] theorem State.setClock_vd (s : State) (c : Nat) (k : Option Clock) : (s.setClock c k).vd = s.vd := rfl
@[simp] theorem State.setClock_tcu (s : State) (c : Nat) (k : Option Clock) : (s.setClock c k).tcu = { s.tcu with clocks := s.tcu.clocks.set c k } := rfl
@[simp] theorem State.setClock_fb (s : State) (c : Nat) (k : Option Clock) : (s.setClock c k).fb = s.fb := rfl
@[simp] theorem State.setClock_cp (s : State) (c : Nat) (k : Option Clock) : (s.setClock c k).cp = s.cp := rfl
@[simp] theorem State.setClock_owed (s : State) (c : Nat) (k : Option Clock) : (s.setClock c k).owed = s.owed := rfl
@[simp] theorem State.setClock_pending (s : State) (c : Nat) (k : Option Clock) : (s.setClock c k).pending = s.pending := rfl

/-! ### `State.modFb` -/

@[simp] theorem State.modFb_li (s : State) (f : Fb → Fb) : (s.modFb f).li = s.li := rfl
@[simp] theorem State.modFb_plt (s : State) (f : Fb → Fb) : (s.modFb f).plt = s.plt := rfl
@[simp] theorem State.modFb_ku (s : State) (f : Fb → Fb) : (s.modFb f).ku = s.ku := rfl
@[simp] theorem State.modFb_tru (s : State) (f : Fb → Fb) : (s.modFb f).tru = s.tru := rfl
@[simp] theorem State.modFb_cia (s : State) (f : Fb → Fb) : (s.modFb f).cia = s.cia := rfl
@[simp] theorem State.modFb_mu (s : State) (f : Fb → Fb) : (s.modFb f).mu = s.mu := rfl
@[simp] theorem State.modFb_mx (s : State) (f : Fb → Fb) : (s.modFb f).mx = s.mx := rfl
@[simp] theorem State.modFb_vd (s : State) (f : Fb → Fb) : (s.modFb f).vd = s.vd := rfl
@[simp] theorem State.modFb_tcu (s : State) (f : Fb → Fb) : (s.modFb f).tcu = s.tcu := rfl
@[simp] theorem State.modFb_fb (s : State) (f : Fb → Fb) : (s.modFb f).fb = f s.fb := rfl
@[simp] theorem State.modFb_cp (s : State) (f : Fb → Fb) : (s.modFb f).cp = s.cp := rfl
@[simp] theorem State.modFb_owed (s : State) (f : Fb → Fb) : (s.modFb f).owed = s.owed := rfl
@[simp] theorem State.modFb_pending (s : State) (f : Fb → Fb) : (s.modFb f).pending = s.pending := rfl

/-! ### `State.modChan` -/

@[simp] theorem State.modChan_li (s : State) (c : Nat) (f : Chan → Chan) : (s.modChan c f).li = s.li := rfl
@[simp] theorem State.modChan_plt (s : State) (c : Nat) (f : Chan → Chan) : (s.modChan c f).plt = s.plt := rfl
@[simp] theorem State.modChan_ku (s : State) (c : Nat) (f : Chan → Chan) : (s.modChan c f).ku = s.ku := rfl
@[simp] theorem State.modChan_tru (s : State) (c : Nat) (f : Chan → Chan) : (s.modChan c f).tru = s.tru := rfl
@[simp] theorem State.modChan_cia (s : State) (c : Nat) (f : Chan → Chan) : (s.modChan c f).cia = s.cia := rfl
@[simp] theorem State.modChan_mu (s : State) (c : Nat) (f : Chan → Chan) : (s.modChan c f).mu = s.mu := rfl
@[simp] theorem State.modChan_mx (s : State) (c : Nat) (f : Chan → Chan) : (s.modChan c f).mx = s.mx := rfl
@[simp] theorem State.modChan_vd (s : State) (c : Nat) (f : Chan → Chan) : (s.modChan c f).vd = s.vd := rfl
@[simp] theorem State.modChan_tcu (s : State) (c : Nat) (f : Chan → Chan) : (s.modChan c f).tcu = s.tcu := rfl
@[simp] theorem State.modChan_fb (s : State) (c : Nat) (f : Chan → Chan) : (s.modChan c f).fb = { s.fb with chans := s.fb.chans.modify c f } := rfl
@[simp] theorem State.modChan_cp (s : State) (c : Nat) (f : Chan → Chan) : (s.modChan c f).cp = s.cp := rfl
@[simp] theorem State.modChan_owed (s : State) (c : Nat) (f : Chan → Chan) : (s.modChan c f).owed = s.owed := rfl
@[simp] theorem State.modChan_pending (s : State) (c : Nat) (f : Chan → Chan) : (s.modChan c f).pending = s.pending := rfl

/-! ### `State.modCp` -/

@[simp] theorem State.modCp_li (s : State) (f : Cp → Cp) : (s.modCp f).li = s.li := rfl
@[simp] theorem State.modCp_plt (s : State) (f : Cp → Cp) : (s.modCp f).plt = s.plt := rfl
@[simp] theorem State.modCp_ku (s : State) (f : Cp → Cp) : (s.modCp f).ku = s.ku := rfl
@[simp] theorem State.modCp_tru (s : State) (f : Cp → Cp) : (s.modCp f).tru = s.tru := rfl
@[simp] theorem State.modCp_cia (s : State) (f : Cp → Cp) : (s.modCp f).cia = s.cia := rfl
@[simp] theorem State.modCp_mu (s : State) (f : Cp → Cp) : (s.modCp f).mu = s.mu := rfl
@[simp] theorem State.modCp_mx (s : State) (f : Cp → Cp) : (s.modCp f).mx = s.mx := rfl
@[simp] theorem State.modCp_vd (s : State) (f : Cp → Cp) : (s.modCp f).vd = s.vd := rfl
@[simp] theorem State.modCp_tcu (s : State) (f : Cp → Cp) : (s.modCp f).tcu = s.tcu := rfl
@[simp] theorem State.modCp_fb (s : State) (f : Cp → Cp) : (s.modCp f).fb = s.fb := rfl
@[simp] theorem State.modCp_cp (s : State) (f : Cp → Cp) : (s.modCp f).cp = f s.cp := rfl
@[simp] theorem State.modCp_owed (s : State) (f : Cp → Cp) : (s.modCp f).owed = s.owed := rfl
@[simp] theorem State.modCp_pending (s : State) (f : Cp → Cp) : (s.modCp f).pending = s.pending := rfl

/-! ### `State.raise` -/

@[simp] theorem State.raise_li (s : State) (e : Event) : (s.raise e).li = s.li := rfl
@[simp] theorem State.raise_plt (s : State) (e : Event) : (s.raise e).plt = s.plt := rfl
@[simp] theorem State.raise_ku (s : State) (e : Event) : (s.raise e).ku = s.ku := rfl
@[simp] theorem State.raise_tru (s : State) (e : Event) : (s.raise e).tru = s.tru := rfl
@[simp] theorem State.raise_cia (s : State) (e : Event) : (s.raise e).cia = s.cia := rfl
@[simp] theorem State.raise_mu (s : State) (e : Event) : (s.raise e).mu = s.mu := rfl
@[simp] theorem State.raise_mx (s : State) (e : Event) : (s.raise e).mx = s.mx := rfl
@[simp] theorem State.raise_vd (s : State) (e : Event) : (s.raise e).vd = s.vd := rfl
@[simp] theorem State.raise_tcu (s : State) (e : Event) : (s.raise e).tcu = s.tcu := rfl
@[simp] theorem State.raise_fb (s : State) (e : Event) : (s.raise e).fb = s.fb := rfl
@[simp] theorem State.raise_cp (s : State) (e : Event) : (s.raise e).cp = { s.cp with events := appendEvent s.cp.events e } := rfl
@[simp] theorem State.raise_owed (s : State) (e : Event) : (s.raise e).owed = s.owed := rfl
@[simp] theorem State.raise_pending (s : State) (e : Event) : (s.raise e).pending = s.pending := rfl

/-! ### `State.withdraw` -/

@[simp] theorem State.withdraw_li (s : State) (p : Message → Bool) (w : Withdrawal) : (s.withdraw p w).li = { s.li with queue := withdrawFrom p w s.li.queue } := rfl
@[simp] theorem State.withdraw_plt (s : State) (p : Message → Bool) (w : Withdrawal) : (s.withdraw p w).plt = s.plt := rfl
@[simp] theorem State.withdraw_ku (s : State) (p : Message → Bool) (w : Withdrawal) : (s.withdraw p w).ku = s.ku := rfl
@[simp] theorem State.withdraw_tru (s : State) (p : Message → Bool) (w : Withdrawal) : (s.withdraw p w).tru = s.tru := rfl
@[simp] theorem State.withdraw_cia (s : State) (p : Message → Bool) (w : Withdrawal) : (s.withdraw p w).cia = s.cia := rfl
@[simp] theorem State.withdraw_mu (s : State) (p : Message → Bool) (w : Withdrawal) : (s.withdraw p w).mu = s.mu := rfl
@[simp] theorem State.withdraw_mx (s : State) (p : Message → Bool) (w : Withdrawal) : (s.withdraw p w).mx = s.mx := rfl
@[simp] theorem State.withdraw_vd (s : State) (p : Message → Bool) (w : Withdrawal) : (s.withdraw p w).vd = s.vd := rfl
@[simp] theorem State.withdraw_tcu (s : State) (p : Message → Bool) (w : Withdrawal) : (s.withdraw p w).tcu = s.tcu := rfl
@[simp] theorem State.withdraw_fb (s : State) (p : Message → Bool) (w : Withdrawal) : (s.withdraw p w).fb = s.fb := rfl
@[simp] theorem State.withdraw_cp (s : State) (p : Message → Bool) (w : Withdrawal) : (s.withdraw p w).cp = s.cp := rfl
@[simp] theorem State.withdraw_owed (s : State) (p : Message → Bool) (w : Withdrawal) : (s.withdraw p w).owed = s.owed := rfl
@[simp] theorem State.withdraw_pending (s : State) (p : Message → Bool) (w : Withdrawal) : (s.withdraw p w).pending = s.pending := rfl

/-! ### `State.passTo` -/

@[simp] theorem State.passTo_li (s : State) (n : Nat) : (s.passTo n).li = { s.li with micros := max s.li.micros n } := rfl
@[simp] theorem State.passTo_plt (s : State) (n : Nat) : (s.passTo n).plt = s.plt := rfl
@[simp] theorem State.passTo_ku (s : State) (n : Nat) : (s.passTo n).ku = s.ku := rfl
@[simp] theorem State.passTo_tru (s : State) (n : Nat) : (s.passTo n).tru = s.tru := rfl
@[simp] theorem State.passTo_cia (s : State) (n : Nat) : (s.passTo n).cia = s.cia := rfl
@[simp] theorem State.passTo_mu (s : State) (n : Nat) : (s.passTo n).mu = s.mu := rfl
@[simp] theorem State.passTo_mx (s : State) (n : Nat) : (s.passTo n).mx = s.mx := rfl
@[simp] theorem State.passTo_vd (s : State) (n : Nat) : (s.passTo n).vd = s.vd := rfl
@[simp] theorem State.passTo_tcu (s : State) (n : Nat) : (s.passTo n).tcu = s.tcu := rfl
@[simp] theorem State.passTo_fb (s : State) (n : Nat) : (s.passTo n).fb = s.fb := rfl
@[simp] theorem State.passTo_cp (s : State) (n : Nat) : (s.passTo n).cp = s.cp := rfl
@[simp] theorem State.passTo_owed (s : State) (n : Nat) : (s.passTo n).owed = s.owed := rfl
@[simp] theorem State.passTo_pending (s : State) (n : Nat) : (s.passTo n).pending = s.pending := rfl

end Sys2Proof.Machine
end

