-- ==== Sys2Proof/Laws/Ops.lean ====
section
/-! SUPPORT. What the shared operations can do: offering, withdrawing, raising an event, reading and writing one record of a block. -/

namespace Sys2Proof.Machine

/-- A property that every step of a fold keeps holds after the fold. -/
theorem foldl_keeps {α β : Type} (P : β → Prop) (f : β → α → β) (h : ∀ b a, P b → P (f b a)) :
    ∀ (l : List α) (b : β), P b → P (l.foldl f b)
  | [], _, hb => hb
  | a :: l, b, hb => foldl_keeps P f h l (f b a) (h b a hb)

/-- A component that no step of a fold changes is unchanged by the fold. -/
theorem foldl_same {α β γ : Type} (g : β → γ) (f : β → α → β) (h : ∀ b a, g (f b a) = g b) :
    ∀ (l : List α) (b : β), g (l.foldl f b) = g b
  | [], _ => rfl
  | a :: l, b => (foldl_same g f h l (f b a)).trans (h b a)

/-! ### Offering (R16) -/

/-- Everything an offer can do: the queue takes an admitted message in its place, and nothing else changes. -/
theorem State.offer_cases (s : State) (m : Message) :
    (s.admits m = true ∧ s.offer m = s.modLi fun li => { li with queue := insertMsg m li.queue }) ∨
      (s.admits m = false ∧ s.offer m = s) := by
  unfold State.offer
  cases h : s.admits m <;> simp

@[simp] theorem State.offer_plt (s : State) (m : Message) : (s.offer m).plt = s.plt := by
  unfold State.offer; split <;> rfl
@[simp] theorem State.offer_ku (s : State) (m : Message) : (s.offer m).ku = s.ku := by
  unfold State.offer; split <;> rfl
@[simp] theorem State.offer_tru (s : State) (m : Message) : (s.offer m).tru = s.tru := by
  unfold State.offer; split <;> rfl
@[simp] theorem State.offer_cia (s : State) (m : Message) : (s.offer m).cia = s.cia := by
  unfold State.offer; split <;> rfl
@[simp] theorem State.offer_mu (s : State) (m : Message) : (s.offer m).mu = s.mu := by
  unfold State.offer; split <;> rfl
@[simp] theorem State.offer_mx (s : State) (m : Message) : (s.offer m).mx = s.mx := by
  unfold State.offer; split <;> rfl
@[simp] theorem State.offer_vd (s : State) (m : Message) : (s.offer m).vd = s.vd := by
  unfold State.offer; split <;> rfl
@[simp] theorem State.offer_tcu (s : State) (m : Message) : (s.offer m).tcu = s.tcu := by
  unfold State.offer; split <;> rfl
@[simp] theorem State.offer_fb (s : State) (m : Message) : (s.offer m).fb = s.fb := by
  unfold State.offer; split <;> rfl
@[simp] theorem State.offer_cp (s : State) (m : Message) : (s.offer m).cp = s.cp := by
  unfold State.offer; split <;> rfl
@[simp] theorem State.offer_owed (s : State) (m : Message) : (s.offer m).owed = s.owed := by
  unfold State.offer; split <;> rfl
@[simp] theorem State.offer_pending (s : State) (m : Message) : (s.offer m).pending = s.pending := by
  unfold State.offer; split <;> rfl

/-- An offer changes no part of the line interface but the queue. -/
theorem State.offer_li (s : State) (m : Message) : ∃ q, (s.offer m).li = { s.li with queue := q } := by
  rcases s.offer_cases m with ⟨-, h⟩ | ⟨-, h⟩ <;> rw [h]
  · exact ⟨insertMsg m s.li.queue, rfl⟩
  · exact ⟨s.li.queue, rfl⟩

@[simp] theorem State.offer_lineState (s : State) (m : Message) : (s.offer m).li.lineState = s.li.lineState := by
  obtain ⟨q, h⟩ := s.offer_li m; rw [h]

/-- An insertion adds one place. -/
theorem insertMsg_length (m : Message) : ∀ q : List OutMsg, (insertMsg m q).length = q.length + 1
  | [] => rfl
  | x :: xs => by
    unfold insertMsg
    split <;> simp [insertMsg_length m xs]

/-- The messages of a queue after an insertion are the old ones and the new one. -/
theorem mem_insertMsg (m : Message) (o : OutMsg) :
    ∀ q : List OutMsg, o ∈ insertMsg m q ↔ o = ⟨m, false, none⟩ ∨ o ∈ q
  | [] => by simp [insertMsg]
  | x :: xs => by
    unfold insertMsg
    split
    · simp only [List.mem_cons, mem_insertMsg m o xs]; tauto
    · simp only [List.mem_cons]

/-- A withdrawal makes no queue longer. -/
theorem withdrawFrom_length (p : Message → Bool) (w : Withdrawal) (q : List OutMsg) :
    (withdrawFrom p w q).length ≤ q.length := List.length_filterMap_le _ _

/-- What a withdrawal leaves: the messages it does not concern, and those locked in a slot. -/
theorem mem_withdrawFrom (p : Message → Bool) (w : Withdrawal) (q : List OutMsg) (o : OutMsg)
    (h : o ∈ withdrawFrom p w q) :
    (o ∈ q ∧ p o.msg = false) ∨ (o.locked = true ∧ p o.msg = true) := by
  simp only [withdrawFrom, List.mem_filterMap] at h
  obtain ⟨x, hx, h⟩ := h
  split at h
  · split at h
    · right; injection h with h; subst h; exact ⟨by assumption, by assumption⟩
    · cases h
  · next hp => left; injection h with h; subst h; exact ⟨hx, by simpa using hp⟩

/-! ### Events (R199) -/

/-- Everything an arriving event can do to the queue: appended, counted in an OVERFLOW at the end, replaced by one, or nothing in a
queue that is full without one. -/
theorem appendEvent_cases (q : List Event) (e : Event) :
    (q.length < 31 ∧ appendEvent q e = q ++ [e]) ∨
      (31 ≤ q.length ∧ ∃ n, q.getLast? = some (.overflow n) ∧ appendEvent q e = q.dropLast ++ [.overflow (bump n)]) ∨
      (q.length = 31 ∧ appendEvent q e = q ++ [.overflow 1]) ∨
      (32 ≤ q.length ∧ appendEvent q e = q) := by
  unfold appendEvent eventPlaces
  by_cases h : q.length < 31
  · exact .inl ⟨h, by simp [h]⟩
  · right
    simp only [show ¬ q.length < 32 - 1 by omega, if_false]
    split
    · next n hn => exact .inl ⟨by omega, n, hn, rfl⟩
    · right
      by_cases h2 : q.length < 32
      · exact .inl ⟨by omega, by simp [h2]⟩
      · exact .inr ⟨by omega, by simp [h2]⟩

/-- The length of the queue after an arriving event. -/
theorem appendEvent_length (q : List Event) (e : Event) (h : q.length ≤ 32) : (appendEvent q e).length ≤ 32 := by
  rcases appendEvent_cases q e with ⟨h1, h2⟩ | ⟨h1, n, h2, h3⟩ | ⟨h1, h2⟩ | ⟨h1, h2⟩
  · rw [h2]; simp; omega
  · rw [h3]; simp; omega
  · rw [h2]; simp; omega
  · rw [h2]; exact h

/-! ### Reading what was written -/

/-- A record read back after it was changed. -/
theorem getD_modify {α : Type} (l : List α) (i j : Nat) (f : α → α) (d : α) :
    (l.modify i f).getD j d = if i = j ∧ j < l.length then f (l.getD j d) else l.getD j d := by
  simp only [List.getD_eq_getElem?_getD, List.getElem?_modify]
  by_cases h : j < l.length
  · by_cases hij : i = j <;> simp [hij, h]
  · simp [h]

/-- A record read back after it was set. -/
theorem getD_set {α : Type} (l : List α) (i j : Nat) (a : α) (d : α) :
    (l.set i a).getD j d = if i = j ∧ j < l.length then a else l.getD j d := by
  simp only [List.getD_eq_getElem?_getD, List.getElem?_set]
  by_cases h : j < l.length
  · by_cases hij : i = j
    · subst hij; simp [h]
    · simp [hij]
  · by_cases hij : i = j
    · subst hij; simp [h]
    · simp [hij, h]

end Sys2Proof.Machine
end

