-- ==== Sys2Proof/Laws/Frames.lean ====
section
/-! SUPPORT. What each operation can change: one lemma per operation names the blocks outside which the state is as before. The lemma of
an operation follows from those of the operations it calls, with no update unfolded. -/

namespace Sys2Proof.Machine

-- One proof after another: a thread for each of many short proofs would reserve more memory than a build has.
set_option Elab.async false

/-! ### Composing frames -/

/-- Nothing is changed. -/
theorem State.changesOnly.refl {s : State} {l : List Piece} : s.changesOnly s l :=
  ⟨rfl, fun p _ => by cases p <;> rfl⟩

/-- What is changed in more parts at most. -/
theorem State.changesOnly.mono {s t : State} {l l' : List Piece} (h : s.changesOnly t l) (hl : l ⊆ l') : s.changesOnly t l' :=
  ⟨h.1, fun p hp => h.2 p fun hq => hp (hl hq)⟩

theorem State.keeps.trans {s t u : State} {p : Piece} (h : s.keeps t p) (h' : t.keeps u p) : s.keeps u p := by
  cases p <;> exact Eq.trans h' h

/-- A change after a change. -/
theorem State.changesOnly.then {s t u : State} {l l' : List Piece} (h : s.changesOnly t l) (h' : t.changesOnly u l')
    (hl : l' ⊆ l := by decide) : s.changesOnly u l :=
  ⟨h'.1.trans h.1, fun p hp => (h.2 p hp).trans (h'.2 p fun hq => hp (hl hq))⟩

/-- A fold whose every step changes these parts alone. -/
theorem State.changesOnly.fold {α : Type} {l : List Piece} {f : State → α → State} (h : ∀ (s : State) (a : α), s.changesOnly (f s a) l)
    {s t : State} (hs : s.changesOnly t l) (as : List α) : s.changesOnly (as.foldl f t) l :=
  foldl_keeps (s.changesOnly · l) f (fun _ a hb => hb.then (h _ a) fun _ hx => hx) as t hs

/-- One of two changes. -/
theorem State.changesOnly.ite {s t u : State} {l : List Piece} {c : Prop} [Decidable c] (h : s.changesOnly t l)
    (h' : s.changesOnly u l) : s.changesOnly (if c then t else u) l := by split <;> assumption

/-! ### Writers -/

section
variable {s : State} {n : Nat}

theorem modLi_changes {f : LineIf → LineIf} : s.changesOnly (s.modLi f) [.li] := ⟨rfl, fun p hp => by cases p <;> first | rfl | simp at hp⟩
theorem modPeer_changes {f : Peer → Peer} : s.changesOnly (s.modPeer n f) [.plt] := ⟨rfl, fun p hp => by cases p <;> first | rfl | simp at hp⟩
theorem setLane_changes {r : Lane} : s.changesOnly (s.setLane n r) [.plt] := ⟨rfl, fun p hp => by cases p <;> first | rfl | simp at hp⟩
theorem modSource_changes {f : SourceRec → SourceRec} : s.changesOnly (s.modSource n f) [.plt] :=
  ⟨rfl, fun p hp => by cases p <;> first | rfl | simp at hp⟩
theorem modKey_changes {f : Key → Key} : s.changesOnly (s.modKey n f) [.ku] := ⟨rfl, fun p hp => by cases p <;> first | rfl | simp at hp⟩
theorem modTru_changes {f : Tru → Tru} : s.changesOnly (s.modTru f) [.tru] := ⟨rfl, fun p hp => by cases p <;> first | rfl | simp at hp⟩
theorem setPath_changes {r : Option Path} : s.changesOnly (s.setPath n r) [.tru] := ⟨rfl, fun p hp => by cases p <;> first | rfl | simp at hp⟩
theorem modFeed_changes {f : Feed → Feed} : s.changesOnly (s.modFeed n f) [.cia] := ⟨rfl, fun p hp => by cases p <;> first | rfl | simp at hp⟩
theorem modChannel_changes {f : Channel → Channel} : s.changesOnly (s.modChannel n f) [.mu] :=
  ⟨rfl, fun p hp => by cases p <;> first | rfl | simp at hp⟩
theorem modMx_changes {f : Mx → Mx} : s.changesOnly (s.modMx f) [.mx] := ⟨rfl, fun p hp => by cases p <;> first | rfl | simp at hp⟩
theorem modMix_changes {f : Mix → Mix} : s.changesOnly (s.modMix n f) [.mx] := ⟨rfl, fun p hp => by cases p <;> first | rfl | simp at hp⟩
theorem modVox_changes {f : Vox → Vox} : s.changesOnly (s.modVox n f) [.vd] := ⟨rfl, fun p hp => by cases p <;> first | rfl | simp at hp⟩
theorem setTone_changes {t : Option Tone} : s.changesOnly (s.setTone n t) [.tcu] := ⟨rfl, fun p hp => by cases p <;> first | rfl | simp at hp⟩
theorem setClock_changes {t : Option Clock} : s.changesOnly (s.setClock n t) [.tcu] :=
  ⟨rfl, fun p hp => by cases p <;> first | rfl | simp at hp⟩
theorem modFb_changes {f : Fb → Fb} : s.changesOnly (s.modFb f) [.fb] := ⟨rfl, fun p hp => by cases p <;> first | rfl | simp at hp⟩
theorem modChan_changes {f : Chan → Chan} : s.changesOnly (s.modChan n f) [.fb] := ⟨rfl, fun p hp => by cases p <;> first | rfl | simp at hp⟩
theorem modCp_changes {f : Cp → Cp} : s.changesOnly (s.modCp f) [.cp] := ⟨rfl, fun p hp => by cases p <;> first | rfl | simp at hp⟩
theorem raise_changes {e : Event} : s.changesOnly (s.raise e) [.cp] := ⟨rfl, fun p hp => by cases p <;> first | rfl | simp at hp⟩
theorem respond_changes {r : Response} : s.changesOnly (s.respond r) [.cp] := modCp_changes
theorem passTo_changes : s.changesOnly (s.passTo n) [.li] := modLi_changes
theorem withdraw_changes {p : Message → Bool} {w : Withdrawal} : s.changesOnly (s.withdraw p w) [.li] := modLi_changes
theorem modEntry_changes {i t : Nat} {g : Entry → Entry} : s.changesOnly (s.modEntry i t n g) [.cia] := modFeed_changes
theorem markMove_changes {b : Bool} : s.changesOnly (s.markMove n b) [.tru] := modTru_changes
theorem setCall_changes {c : CallOrigin} : s.changesOnly (s.setCall n c) [.tru] := modTru_changes
theorem setReply_changes {i : Nat} : s.changesOnly (s.setReply i n) [.cia] := modFeed_changes
theorem moveSent_changes {l : Nat} : s.changesOnly (s.moveSent n l) [.tru] := modTru_changes
theorem offer_changes {m : Message} : s.changesOnly (s.offer m) [.li] := by
  unfold State.offer; exact .ite modLi_changes .refl

/-! ### The peer and lane table -/

theorem pick_changes : s.changesOnly (s.pick n) [.li, .plt, .cp] := by
  unfold State.pick
  split
  · exact (State.changesOnly.refl.then modSource_changes).then offer_changes
  · exact .ite .refl ((State.changesOnly.refl.then modSource_changes).then raise_changes)

theorem serveWaiting_changes : s.changesOnly (s.serveWaiting n) [.li, .plt, .cp] := .ite pick_changes .refl

theorem laneFreed_changes : s.changesOnly s.laneFreed [.li, .plt, .cp] :=
  .ite (.fold (fun _ _ => serveWaiting_changes) .refl _) .refl

theorem repick_changes {l : Nat} : s.changesOnly (s.repick n l) [.li, .plt, .cp] :=
  .ite (.ite (State.changesOnly.refl.then withdraw_changes)
    ((State.changesOnly.refl.then withdraw_changes).then pick_changes)) .refl

theorem pickLost_changes : s.changesOnly (s.pickLost n) [.li, .plt, .cp] := .fold (fun _ _ => repick_changes) .refl _

theorem headerHeard_changes {l x p : Nat} : s.changesOnly (s.headerHeard l x n p) [.li, .plt, .cp] := by
  unfold State.headerHeard
  split
  · exact (State.changesOnly.refl.then setLane_changes).then pickLost_changes
  · exact State.changesOnly.refl.then setLane_changes
  · exact (State.changesOnly.refl.then setLane_changes).then pick_changes
  · exact .refl

theorem claimHeard_changes {t l : Nat} : s.changesOnly (s.claimHeard t l n) [.li, .plt, .cp] := by
  unfold State.claimHeard
  split
  · exact (State.changesOnly.refl.then setLane_changes).then pickLost_changes
  · exact .ite (.ite (State.changesOnly.refl.then setLane_changes) .refl)
      (.ite (State.changesOnly.refl.then setLane_changes) (.ite (State.changesOnly.refl.then setLane_changes) .refl))
  · exact .ite ((State.changesOnly.refl.then setLane_changes).then pick_changes) .refl
  · exact .refl

theorem claimSent_changes {l : Nat} {d : Option Withdrawal} : s.changesOnly (s.claimSent n l d) [.li, .plt, .cp] :=
  .ite .refl (.ite (.ite ((State.changesOnly.refl.then setLane_changes).then laneFreed_changes) .refl)
    (.ite (.ite ((State.changesOnly.refl.then setLane_changes).then modSource_changes) pick_changes) .refl))

theorem setNeed_changes : s.changesOnly (s.setNeed n) [.li, .plt, .cp] :=
  .ite .refl (.ite ((State.changesOnly.refl.then modSource_changes).then pick_changes) (State.changesOnly.refl.then modSource_changes))

theorem clearNeed_changes : s.changesOnly (s.clearNeed n) [.li, .plt, .cp] := by
  unfold State.clearNeed
  have h : s.changesOnly (s.modSource n fun _ => ⟨false, .idle, false⟩) [.li, .plt, .cp] := State.changesOnly.refl.then modSource_changes
  refine .ite ?_ .refl
  dsimp only
  split
  · exact h
  · exact h
  · exact (h.then withdraw_changes).then laneFreed_changes
  · exact (h.then setLane_changes).then laneFreed_changes
  · exact (h.then setLane_changes).then laneFreed_changes

theorem writeNeed_changes {b : Bool} : s.changesOnly (s.writeNeed n b) [.li, .plt, .cp] := .ite setNeed_changes clearNeed_changes

theorem leaveLanes_changes : s.changesOnly s.leaveLanes [.plt] :=
  .fold (fun s n => by
    split
    · exact modSource_changes
    · exact modSource_changes
    · exact setLane_changes.then modSource_changes
    · exact .refl) .refl _

theorem refreshPeer_changes : s.changesOnly (s.refreshPeer n) [.plt, .cp] :=
  .ite .refl (.ite ((State.changesOnly.refl.then modPeer_changes).then raise_changes) (State.changesOnly.refl.then modPeer_changes))

theorem refreshWinner_changes : s.changesOnly (s.refreshWinner n) [.plt, .cp] := .ite .refl refreshPeer_changes

theorem freeLanesOf_changes : s.changesOnly (s.freeLanesOf n) [.li, .plt, .cp] := by
  unfold State.freeLanesOf
  refine State.changesOnly.then ?_ laneFreed_changes
  exact ⟨rfl, fun p hp => by cases p <;> first | rfl | simp at hp⟩

/-! ### Talk requests -/

theorem prepare_changes {r : OpenReq} : s.changesOnly (s.prepare n r) [.li, .plt, .tru, .cp] :=
  .ite ((State.changesOnly.refl.then setPath_changes).then setNeed_changes) (State.changesOnly.refl.then setPath_changes)

theorem offerPath_changes : s.changesOnly (s.offerPath n) [.li, .tru] := by
  unfold State.offerPath
  split
  · split
    · exact .ite (.ite (((State.changesOnly.refl.then setPath_changes).then modTru_changes).then offer_changes)
        (State.changesOnly.refl.then setPath_changes)) .refl
    · exact .refl
  · exact .refl

theorem offeringPass_changes : s.changesOnly s.offeringPass [.li, .tru] := .ite (.fold (fun _ _ => offerPath_changes) .refl _) .refl

theorem endNeed_changes : s.changesOnly (s.endNeed n) [.li, .plt, .cp] := .ite clearNeed_changes .refl

theorem openPath_changes {r : OpenReq} : s.changesOnly (s.openPath n r) [.li, .plt, .tru, .cp] := by
  unfold State.openPath
  refine .ite ?_ .refl
  split
  · exact prepare_changes.then offerPath_changes
  · exact .ite (State.changesOnly.refl.then setPath_changes) .refl

theorem freePath_changes : s.changesOnly (s.freePath n) [.li, .plt, .tru, .cp] := by
  unfold State.freePath
  split
  · exact (State.changesOnly.refl.then setPath_changes).then endNeed_changes
  · exact .refl

theorem closeOpened_changes {p : Path} : s.changesOnly (s.closeOpened n p) [.li, .tru] :=
  .ite ((State.changesOnly.refl.then withdraw_changes).then setPath_changes)
    (((State.changesOnly.refl.then withdraw_changes).then setPath_changes).then offer_changes)

theorem retryClose_changes : s.changesOnly (s.retryClose n) [.li, .tru] := by
  unfold State.retryClose
  split
  · exact .ite ((State.changesOnly.refl.then setPath_changes).then offer_changes) .refl
  · exact .refl

theorem closePath_changes : s.changesOnly (s.closePath n) [.li, .plt, .tru, .cp] := by
  unfold State.closePath
  split
  · exact .refl
  · split
    · exact freePath_changes
    · exact .ite (State.changesOnly.refl.then withdraw_changes)
        ((State.changesOnly.refl.then withdraw_changes).then freePath_changes)
    · exact State.changesOnly.refl.then closeOpened_changes
    · exact State.changesOnly.refl.then setPath_changes

theorem closeSent_changes : s.changesOnly (s.closeSent n) [.li, .plt, .tru, .cp] := by
  unfold State.closeSent
  split
  · refine .ite ?_ .refl
    dsimp only
    split
    · exact ((((State.changesOnly.refl.then modTru_changes).then setPath_changes).then prepare_changes).then endNeed_changes).then
        offeringPass_changes
    · exact ((State.changesOnly.refl.then modTru_changes).then setPath_changes).then endNeed_changes
  · exact .refl

theorem openSent_changes {m : TalkOpen} : s.changesOnly (s.openSent m) [.tru] := by
  unfold State.openSent
  split
  · exact .ite (setPath_changes.then modTru_changes) .refl
  · exact .refl

theorem retire_changes : s.changesOnly s.retire [.li, .tru, .cp] := by
  unfold State.retire
  split
  · exact .ite (((State.changesOnly.refl.then modTru_changes).then raise_changes).then offeringPass_changes) .refl
  · exact .refl

theorem answerItem_changes {g : Nat} {i : Item} : s.changesOnly (s.answerItem g n i) [.tru, .cp] := by
  unfold State.answerItem
  dsimp only
  split
  · exact .ite (.ite (((State.changesOnly.refl.then modTru_changes).then setPath_changes).then raise_changes)
      ((State.changesOnly.refl.then modTru_changes).then setPath_changes)) (State.changesOnly.refl.then modTru_changes)
  · exact State.changesOnly.refl.then modTru_changes

theorem answerHeard_changes {l g : Nat} {is : List WireItem} : s.changesOnly (s.answerHeard l g n is) [.tru, .cp] :=
  .fold (fun _ _ => answerItem_changes) .refl _

theorem noticeTag_changes {l f src g : Nat} {st : ItemState} {rs : Reason} :
    s.changesOnly (s.noticeTag l f src st rs g) [.tru, .cp] := by
  unfold State.noticeTag
  dsimp only
  split
  · split
    · exact .ite (.ite (((State.changesOnly.refl.then setPath_changes).then modTru_changes).then raise_changes)
        ((State.changesOnly.refl.then setPath_changes).then modTru_changes)) .refl
    · exact .refl
  · exact .refl

theorem noticeHeard_changes {l f src : Nat} {st : ItemState} {rs : Reason} :
    s.changesOnly (s.noticeHeard l f src st rs) [.tru, .cp] := .fold (fun _ _ => noticeTag_changes) .refl _

theorem offerMove_changes {l : Nat} : s.changesOnly (s.offerMove n l) [.li, .tru] :=
  (State.changesOnly.refl.then markMove_changes).then offer_changes

theorem handOver_changes {l : Nat} {b : Bool} : s.changesOnly (s.handOver n l b) [.li, .tru] :=
  .ite .refl ((State.changesOnly.ite offerMove_changes .refl).then offeringPass_changes)

theorem unissue_changes {g : Nat} : s.changesOnly (State.unissue n s g) [.li, .tru] := by
  unfold State.unissue
  split
  · exact .ite (.ite (State.changesOnly.refl.then withdraw_changes)
      ((State.changesOnly.refl.then withdraw_changes).then setPath_changes)) .refl
  · exact .refl

theorem laneLost_changes : s.changesOnly (s.laneLost n) [.li, .tru] :=
  .fold (fun _ _ => unissue_changes) (State.changesOnly.refl.then withdraw_changes) _

theorem reannounce_changes : s.changesOnly (s.reannounce n) [.li, .tru] := by
  unfold State.reannounce
  split
  · split
    · exact (State.changesOnly.refl.then setPath_changes).then offer_changes
    · exact .refl
  · exact .refl

theorem announceTally_changes : s.changesOnly (s.announceTally n) [.li, .tru] :=
  .ite ((State.changesOnly.refl.then modTru_changes).then offer_changes) .refl

theorem reannounceAll_changes : s.changesOnly s.reannounceAll [.li, .tru] :=
  .fold (fun _ _ => announceTally_changes) (.fold (fun _ _ => .ite .refl reannounce_changes) .refl _) _

theorem placeCall_changes : s.changesOnly (s.placeCall n) [.li, .tru] := by
  unfold State.placeCall
  split
  · exact (State.changesOnly.refl.then setCall_changes).then offer_changes
  · exact .refl

theorem callSent_changes : s.changesOnly (s.callSent n) [.tru] := by
  unfold State.callSent
  split
  · exact setCall_changes
  · exact .refl

theorem ackHeard_changes {st f : Nat} : s.changesOnly (s.ackHeard n st f) [.tru, .cp] := by
  unfold State.ackHeard
  split
  · split
    · exact .refl
    · exact State.changesOnly.refl.then raise_changes
    · exact (State.changesOnly.refl.then setCall_changes).then raise_changes
    · exact (State.changesOnly.refl.then setCall_changes).then raise_changes
  · exact .refl

/-! ### Memo -/

theorem freeChain_changes {c : List Nat} : s.changesOnly (s.freeChain c) [.mu] := .fold (fun _ _ => modChannel_changes) .refl _

theorem requestMemo_changes {i t : Nat} : s.changesOnly (s.requestMemo i t n) [.cia, .mu, .cp] := by
  unfold State.requestMemo
  split
  · refine .ite ?_ .refl
    split
    · exact (State.changesOnly.refl.then modChannel_changes).then modEntry_changes
    · exact State.changesOnly.refl.then raise_changes
  · exact .refl

theorem syncEntry_changes {e : Entry} : s.changesOnly (State.syncEntry n s e) [.mu] := .fold (fun _ _ => modChannel_changes) .refl _

theorem sync_changes : s.changesOnly (s.sync n) [.mu] := .fold (fun _ _ => syncEntry_changes) .refl _

theorem discard_changes {e : Entry} {c : Option Reason} : s.changesOnly (s.discard n e c) [.mu, .cp] := by
  unfold State.discard
  dsimp only
  split
  · exact .ite (State.changesOnly.refl.then freeChain_changes) ((State.changesOnly.refl.then freeChain_changes).then raise_changes)
  · exact State.changesOnly.refl.then freeChain_changes

theorem storeBlock_changes {i t : Nat} {c : List Nat} {b : Block} : s.changesOnly (s.storeBlock i t n c b) [.cia, .mu, .cp] := by
  unfold State.storeBlock
  split
  · exact .ite (State.changesOnly.refl.then modChannel_changes)
      (.ite ((State.changesOnly.refl.then modChannel_changes).then modEntry_changes)
        (.ite (State.changesOnly.refl.then modChannel_changes) ((State.changesOnly.refl.then modChannel_changes).then raise_changes)))
  · exact .refl

theorem captureFeed_changes {l : Nat} {t : Slot} : s.changesOnly (s.captureFeed l t n) [.cia, .mu, .cp] := by
  unfold State.captureFeed
  split
  · exact .ite (storeBlock_changes.then sync_changes) .refl
  · exact .refl

theorem capture_changes {l : Nat} {b : Bool} {t : Slot} : s.changesOnly (s.capture l b t) [.cia, .mu, .cp] :=
  .ite (.fold (fun _ _ => captureFeed_changes) .refl _) .refl

/-! ### Tones and clocks -/

theorem toneRequest_changes {p : Pattern} : s.changesOnly (s.toneRequest n p) [.tcu] := setTone_changes

theorem endPhase_changes : s.changesOnly (s.endPhase n) [.tcu] := by
  unfold State.endPhase
  split
  · exact .ite setTone_changes .refl
  · exact .refl

theorem cueFeed_changes {o d x m : Nat} : s.changesOnly (s.cueFeed o d x m n) [.tcu, .cp] := by
  unfold State.cueFeed
  dsimp only
  split
  · exact State.changesOnly.refl.then setClock_changes
  · split
    · exact State.changesOnly.refl.then setClock_changes
    · exact State.changesOnly.refl.then raise_changes

theorem cueTaken_changes {o d x m : Nat} : s.changesOnly (s.cueTaken o d x m) [.tcu, .cp] :=
  .fold (fun _ _ => .ite cueFeed_changes .refl) .refl _

theorem cueHalted_changes {o d : Nat} : s.changesOnly (s.cueHalted o d) [.tcu] :=
  .fold (fun s i => .ite (by split; exacts [setClock_changes, .refl]) .refl) .refl _

theorem cueZero_changes : s.changesOnly (s.cueZero n) [.tcu, .cp] := by
  unfold State.cueZero
  split
  · exact .ite (.ite (State.changesOnly.refl.then setClock_changes)
      ((State.changesOnly.refl.then setClock_changes).then raise_changes)) .refl
  · exact .refl

end

end Sys2Proof.Machine
end

