-- ==== Sys2Proof/Laws/ArbiterFrames.lean ====
section
/-! SUPPORT. What the operations of the cut-in arbiter and of the memo unit's read pass can change, one lemma per operation: the feeds and
the memo channels, the event queue, and the outbound message queue. -/

namespace Sys2Proof.Machine

-- One proof after another: a thread for each of many short proofs would reserve more memory than a build has.
set_option Elab.async false

section
variable {s : State} {i t src : Nat} {e : Entry} {b : Bool}

/-! ### Places -/

theorem notify_changes {st : ItemState} {r : Reason} : s.changesOnly (s.notify i e st r) [.li] := .ite .refl offer_changes

theorem notifyUnless_changes {st : ItemState} {r : Reason} : s.changesOnly (s.notifyUnless b i e st r) [.li] :=
  .ite .refl notify_changes

theorem replyTop_changes : s.changesOnly (s.replyTop i) [.cia] := by
  unfold State.replyTop
  split
  · exact setReply_changes
  · exact .refl

theorem push_changes : s.changesOnly (s.push i e) [.cia] := modFeed_changes.then setReply_changes

theorem enterAdmitted_changes : s.changesOnly (s.enterAdmitted i e) [.cia] := modFeed_changes.then setReply_changes

theorem insertHeld_changes {q : Bool} : s.changesOnly (s.insertHeld i e b q) [.li, .cia, .mu, .cp] := by
  unfold State.insertHeld
  dsimp only
  have hf : ∀ f : Feed → Feed, s.changesOnly (s.modFeed i f) [.li, .cia, .mu, .cp] := fun _ => State.changesOnly.refl.then modFeed_changes
  have report : ∀ u : State, s.changesOnly u [.li, .cia, .mu, .cp] →
      s.changesOnly (if b = true then u.notifyUnless q i e .held .setBack else u) [.li, .cia, .mu, .cp] := fun u h =>
    .ite (h.then notifyUnless_changes) h
  have ask : ∀ u : State, s.changesOnly u [.li, .cia, .mu, .cp] →
      s.changesOnly (if b = true then u.requestMemo i e.talker e.source else u) [.li, .cia, .mu, .cp] := fun u h =>
    .ite (h.then requestMemo_changes) h
  split
  · exact ask _ (report _ (hf _))
  · exact .ite (((hf _).then discard_changes).then notifyUnless_changes)
      (ask _ (((report _ (hf _)).then discard_changes).then notify_changes))

theorem setBack_changes : s.changesOnly (s.setBack i e b) [.li, .cia, .mu, .cp] := insertHeld_changes

theorem promotionCheck_changes : s.changesOnly (s.promotionCheck i) [.li, .cia] := by
  unfold State.promotionCheck
  dsimp only
  split
  · exact .ite (((State.changesOnly.refl.then modFeed_changes).then push_changes).then notify_changes) .refl
  · exact .refl

theorem admitSeven_changes {own : Option (Nat × Nat)} : s.changesOnly (s.admitSeven i e own) [.li, .cia, .mu, .cp] := by
  unfold State.admitSeven
  dsimp only
  split
  · exact State.changesOnly.refl.then enterAdmitted_changes
  · exact ((State.changesOnly.refl.then modFeed_changes).then setBack_changes).then enterAdmitted_changes

theorem refillLoop_changes {own : Option (Nat × Nat)} :
    ∀ (n : Nat) {s : State}, s.changesOnly (s.refillLoop n i own) [.li, .cia, .mu, .cp]
  | 0, s => .refl
  | n + 1, s => by
    unfold State.refillLoop
    dsimp only
    split
    · refine .ite .refl (.ite ?_ (.ite ?_ .refl))
      · exact ((State.changesOnly.refl.then modFeed_changes).then admitSeven_changes).then notify_changes
      · exact (((State.changesOnly.refl.then modFeed_changes).then enterAdmitted_changes).then notify_changes).then
          (refillLoop_changes n)
    · exact .refl

theorem refillBut_changes {own : Option (Nat × Nat)} : s.changesOnly (s.refillBut i own) [.li, .cia, .mu, .cp] :=
  refillLoop_changes _

theorem refill_changes : s.changesOnly (s.refill i) [.li, .cia, .mu, .cp] := refillLoop_changes _

theorem fillPlace_changes : s.changesOnly (s.fillPlace i) [.li, .cia, .mu, .cp] :=
  .ite refill_changes (State.changesOnly.refl.then promotionCheck_changes)

/-! ### Removal and level changes -/

theorem remove_changes {c : Option Reason} : s.changesOnly (s.remove i t src c b) [.li, .cia, .mu, .cp] := by
  unfold State.remove
  dsimp only
  split
  · next e p _ _ =>
    have h : s.changesOnly ((s.modFeed i fun f => f.without t src).discard i e c) [.li, .cia, .mu, .cp] :=
      (State.changesOnly.refl.then modFeed_changes).then discard_changes
    cases c with
    | none =>
      cases p with
      | top => exact (h.then replyTop_changes).then promotionCheck_changes
      | admitted => exact h.then refill_changes
      | suspended => exact h
      | held => exact h
    | some r =>
      cases p with
      | top => exact ((h.then notifyUnless_changes).then replyTop_changes).then promotionCheck_changes
      | admitted => exact (h.then notifyUnless_changes).then refill_changes
      | suspended => exact h.then notifyUnless_changes
      | held => exact h.then notifyUnless_changes
  · exact .refl

theorem release_changes : s.changesOnly (s.release i t src) [.li, .cia, .mu, .cp] := by
  unfold State.release
  split
  · exact .ite remove_changes .refl
  · exact .refl

theorem relevelTop_changes {n : Nat} : s.changesOnly (s.relevelTop i e n b) [.li, .cia, .mu, .cp] :=
  .ite (State.changesOnly.refl.then modEntry_changes)
    (.ite ((State.changesOnly.refl.then modEntry_changes).then promotionCheck_changes)
      ((((State.changesOnly.refl.then modFeed_changes).then setBack_changes).then replyTop_changes).then promotionCheck_changes))

theorem relevelSuspended_changes {n : Nat} : s.changesOnly (s.relevelSuspended i e n b) [.li, .cia, .mu, .cp] :=
  .ite (.ite ((State.changesOnly.refl.then modFeed_changes).then push_changes)
      ((State.changesOnly.refl.then modFeed_changes).then setBack_changes))
    (.ite (State.changesOnly.refl.then modEntry_changes) ((State.changesOnly.refl.then modFeed_changes).then setBack_changes))

theorem relevelHeld_changes {n : Nat} : s.changesOnly (s.relevelHeld i e n b) [.li, .cia, .mu, .cp] :=
  .ite ((((State.changesOnly.refl.then modFeed_changes).then insertHeld_changes).then modFeed_changes).then push_changes |>.then
      notifyUnless_changes)
    ((State.changesOnly.refl.then modFeed_changes).then insertHeld_changes)

theorem relevelMix_changes {p : Place} {n : Nat} : s.changesOnly (s.relevelMix i e p n b) [.li, .cia, .mu, .cp] := by
  unfold State.relevelMix
  dsimp only
  have out : ∀ f : Feed → Feed, s.changesOnly (s.modFeed i f) [.li, .cia, .mu, .cp] := fun _ => State.changesOnly.refl.then modFeed_changes
  have write : ∀ g : Entry → Entry, s.changesOnly (s.modEntry i e.talker e.source g) [.li, .cia, .mu, .cp] := fun _ =>
    State.changesOnly.refl.then modEntry_changes
  split
  · exact .ite (.ite ((out _).then setBack_changes) (write _)) (.ite ((write _).then refillBut_changes) (write _))
  · exact .ite (((out _).then admitSeven_changes).then notifyUnless_changes) ((out _).then insertHeld_changes)

theorem relevel_changes : s.changesOnly (s.relevel i t src b) [.li, .cia, .mu, .cp] := by
  unfold State.relevel
  dsimp only
  split
  · refine .ite .refl (.ite remove_changes (.ite relevelMix_changes ?_))
    split
    · exact relevelTop_changes
    · exact relevelSuspended_changes
    · exact relevelHeld_changes
  · exact .refl

/-! ### Arrival, close and move of talk -/

variable {d tag lane : Nat} {m : TalkOpen}

theorem openExisting_changes : s.changesOnly (s.openExisting i t d m e).1 [.li, .cia, .mu, .cp] := by
  unfold State.openExisting
  dsimp only
  split
  · exact .refl
  · split
    · exact .refl
    · exact .ite (((State.changesOnly.refl.then modEntry_changes).then relevel_changes).then requestMemo_changes)
        ((State.changesOnly.refl.then modEntry_changes).then relevel_changes)

theorem newEntry_changes : s.changesOnly (s.newEntry i t d m).2 [.cia] := modFeed_changes

theorem holdNew_changes : s.changesOnly (s.holdNew i t d m).1 [.li, .cia, .mu, .cp] := by
  unfold State.holdNew
  dsimp only
  split
  · exact .refl
  · exact ((State.changesOnly.refl.then newEntry_changes).then insertHeld_changes).then requestMemo_changes

theorem openNew_changes : s.changesOnly (s.openNew i t d m).1 [.li, .cia, .mu, .cp] := by
  unfold State.openNew
  dsimp only
  split
  · exact .refl
  · split
    · split
      · split
        · exact holdNew_changes
        · exact (State.changesOnly.refl.then newEntry_changes).then admitSeven_changes
      · split
        · exact holdNew_changes
        · exact (State.changesOnly.refl.then newEntry_changes).then enterAdmitted_changes
    · split
      · exact (State.changesOnly.refl.then newEntry_changes).then push_changes
      · exact holdNew_changes

theorem openAt_changes {is : List WireItem} : s.changesOnly (State.openAt t m (s, is) i).1 [.li, .cia, .mu, .cp] := by
  unfold State.openAt
  dsimp only
  split
  · split
    · exact .refl
    · split
      · exact openExisting_changes.then sync_changes
      · exact openNew_changes.then sync_changes
  · exact .refl

theorem talkOpened_changes : s.changesOnly (s.talkOpened t m) [.li, .cia, .mu, .cp] := by
  have h : s.changesOnly ((List.range 6).foldl (State.openAt t m) (s, [])).1 [.li, .cia, .mu, .cp] :=
    foldl_keeps (fun r : State × List WireItem => s.changesOnly r.1 [.li, .cia, .mu, .cp]) (State.openAt t m)
      (fun _ _ hb => hb.then openAt_changes) _ _ .refl
  unfold State.talkOpened
  exact .ite h (h.then offer_changes)

theorem closeAt_changes : s.changesOnly (State.closeAt t src tag s i) [.li, .cia, .mu, .cp] := by
  unfold State.closeAt
  split
  · exact .ite ((State.changesOnly.ite ((State.changesOnly.refl.then modEntry_changes).then release_changes)
      ((State.changesOnly.refl.then modEntry_changes).then relevel_changes)).then sync_changes) .refl
  · exact .refl

theorem talkClosed_changes : s.changesOnly (s.talkClosed t src tag) [.li, .cia, .mu, .cp] := .fold (fun _ _ => closeAt_changes) .refl _

theorem talkMoved_changes : s.changesOnly (s.talkMoved t src lane) [.cia] := .fold (fun _ _ => modEntry_changes) .refl _

theorem expireHeld_changes : s.changesOnly (s.expireHeld i t src) [.li, .cia, .mu, .cp] := by
  unfold State.expireHeld
  split
  · exact .ite (remove_changes.then sync_changes) .refl
  · exact .refl

/-! ### Tally, calls and the loss of a peer -/

theorem drop_changes {c : Option Reason} : s.changesOnly (State.drop c i s e) [.li, .cia, .mu, .cp] := by
  unfold State.drop
  dsimp only
  split
  · exact ((State.changesOnly.refl.then modFeed_changes).then discard_changes).then notify_changes
  · exact (State.changesOnly.refl.then modFeed_changes).then discard_changes

theorem afterStep_changes {o : Option Entry} : s.changesOnly (s.afterStep i o) [.li, .cia, .mu, .cp] :=
  ((State.changesOnly.ite .refl (State.changesOnly.refl.then replyTop_changes)).then fillPlace_changes).then sync_changes

theorem onAirStep_changes : s.changesOnly (s.onAirStep i) [.li, .cia, .mu, .cp] :=
  (State.changesOnly.fold (fun _ _ => drop_changes) .refl _).then afterStep_changes

theorem dropOnAir_changes {c : TallyCause} : s.changesOnly (s.dropOnAir i t d c) [.cia, .cp] :=
  .ite (.ite ((State.changesOnly.refl.then modFeed_changes).then raise_changes) (State.changesOnly.refl.then modFeed_changes)) .refl

theorem tallyAt_changes : s.changesOnly (s.tallyAt i t d b) [.li, .cia, .mu, .cp] :=
  .ite (.ite (State.changesOnly.refl.then modFeed_changes)
      (.ite (.ite (((State.changesOnly.refl.then modFeed_changes).then onAirStep_changes).then raise_changes)
        (State.changesOnly.refl.then modFeed_changes)) .refl))
    (State.changesOnly.refl.then dropOnAir_changes)

theorem tallied_changes : s.changesOnly (s.tallied t d b) [.li, .cia, .mu, .cp] := .fold (fun _ _ => .ite tallyAt_changes .refl) .refl _

theorem expireOnAir_changes : s.changesOnly (s.expireOnAir i t d) [.cia, .cp] := .ite dropOnAir_changes .refl

theorem dropCall_changes {k : Nat} {c : CallCause} : s.changesOnly (s.dropCall i t k c) [.cia, .cp] :=
  .ite ((State.changesOnly.refl.then modFeed_changes).then raise_changes) .refl

theorem callAt_changes {k kind : Nat} : s.changesOnly (s.callAt t k kind i d) [.cia, .tcu, .cp] := by
  unfold State.callAt
  dsimp only
  refine State.changesOnly.then (State.changesOnly.then (State.changesOnly.then ?_ modFeed_changes) toneRequest_changes) raise_changes
  split
  · exact .ite (State.changesOnly.refl.then dropCall_changes) .refl
  · exact .refl

theorem called_changes {k kind : Nat} {ds : List Nat} : s.changesOnly (s.called t k kind ds) [.cia, .tcu, .cp] :=
  .fold (fun s i => by split; exacts [callAt_changes, .refl]) .refl _

theorem repeatCall_changes {k : Nat} : s.changesOnly (s.repeatCall i t k) [.tcu] := .ite toneRequest_changes .refl

theorem expireCall_changes {k : Nat} : s.changesOnly (s.expireCall i t k) [.cia, .cp] := .ite dropCall_changes .refl

theorem lossEntries_changes {p : Nat} : s.changesOnly (State.lossEntries p s i) [.li, .cia, .mu, .cp] := by
  unfold State.lossEntries
  dsimp only
  refine .ite (.ite (State.changesOnly.then ?_ sync_changes) (State.changesOnly.then ?_ afterStep_changes)) .refl
  · exact .fold (fun _ _ => drop_changes) (State.changesOnly.refl.then modFeed_changes) _
  · exact .fold (fun _ _ => drop_changes) (State.changesOnly.refl.then modFeed_changes) _

theorem lossRecords_changes {p : Nat} : s.changesOnly (State.lossRecords p s i) [.cia, .cp] :=
  .fold (fun _ _ => dropCall_changes) (.fold (fun _ _ => dropOnAir_changes) .refl _) _

theorem peerLost_changes {p : Nat} : s.changesOnly (s.peerLost p) [.li, .cia, .mu, .cp] :=
  .fold (fun _ _ => lossEntries_changes.then lossRecords_changes) .refl _

theorem peerGone_changes {p : Nat} : s.changesOnly (s.peerGone p) [.li, .plt, .cia, .mu, .cp] :=
  ((State.changesOnly.ite ((State.changesOnly.refl.then modPeer_changes).then raise_changes)
    (State.changesOnly.refl.then modPeer_changes)).then freeLanesOf_changes).then peerLost_changes

/-! ### The read pass -/

theorem readEntry_changes : s.changesOnly (s.readEntry i e) [.li, .cia, .mu, .cp] := by
  unfold State.readEntry
  split
  · split
    · exact .ite (((State.changesOnly.refl.then modEntry_changes).then modChannel_changes).then modEntry_changes)
        ((State.changesOnly.refl.then modEntry_changes).then modChannel_changes)
    · exact .ite remove_changes ((State.changesOnly.refl.then freeChain_changes).then modEntry_changes)
  · exact .refl

theorem readLoop_changes : ∀ (n : Nat) {s : State} {l : List (Nat × Nat)}, s.changesOnly (s.readLoop n i l) [.li, .cia, .mu, .cp]
  | 0, s, l => .refl
  | n + 1, s, l => by
    unfold State.readLoop
    dsimp only
    split
    · exact readEntry_changes.then (readLoop_changes n)
    · exact .refl

theorem readPass_changes : s.changesOnly (s.readPass i) [.li, .cia, .mu, .cp] := (readLoop_changes 15).then sync_changes

end

end Sys2Proof.Machine
end

