-- ==== Sys2Proof/Laws/CommandFrames.lean ====
section
/-! SUPPORT. What the operations of the key unit, the field bridge, the mixes, the line interface, the due steps and the opening can change,
one lemma per operation. -/

namespace Sys2Proof.Machine

-- One proof after another: a thread for each of many short proofs would reserve more memory than a build has.
set_option Elab.async false

section
variable {s : State} {n : Nat}

/-! ### Keys -/

theorem openKey_changes : s.changesOnly (s.openKey n) [.li, .plt, .ku, .tru, .cp] := by
  unfold State.openKey
  dsimp only
  refine .ite ?_ ((State.changesOnly.refl.then modKey_changes).then openPath_changes)
  split
  · exact (State.changesOnly.refl.then modKey_changes).then openPath_changes
  · exact State.changesOnly.refl.then raise_changes

theorem closeKey_changes : s.changesOnly (s.closeKey n) [.li, .plt, .ku, .tru, .cp] :=
  (State.changesOnly.refl.then modKey_changes).then closePath_changes

theorem pressMode_changes : s.changesOnly (s.pressMode n) [.li, .plt, .ku, .tru, .cp] := by
  unfold State.pressMode
  dsimp only
  split
  · exact .ite openKey_changes .refl
  · exact .ite openKey_changes (.ite .refl closeKey_changes)
  · exact .ite openKey_changes (.ite closeKey_changes .refl)

theorem pressCall_changes : s.changesOnly (s.pressCall n) [.li, .tru, .cp] :=
  .ite (State.changesOnly.refl.then placeCall_changes) (State.changesOnly.refl.then raise_changes)

theorem press_changes : s.changesOnly (s.press n) [.li, .plt, .ku, .tru, .cp] :=
  .ite .refl (.ite (State.changesOnly.refl.then raise_changes)
    (.ite (State.changesOnly.refl.then pressCall_changes) pressMode_changes))

theorem releaseAuto_changes : s.changesOnly (s.releaseAuto n) [.li, .plt, .ku, .tru, .cp] :=
  .ite .refl (.ite (State.changesOnly.refl.then modKey_changes) closeKey_changes)

theorem releaseKey_changes : s.changesOnly (s.releaseKey n) [.li, .plt, .ku, .tru, .cp] := by
  unfold State.releaseKey
  dsimp only
  refine .ite .refl ?_
  split
  · exact .ite .refl closeKey_changes
  · exact .refl
  · exact .ite .refl releaseAuto_changes

theorem takeLevel_changes {l : KeyLevel} : s.changesOnly (s.takeLevel n l) [.li, .plt, .ku, .tru, .cp] := by
  unfold State.takeLevel
  dsimp only
  split
  · exact (State.changesOnly.refl.then modKey_changes).then press_changes
  · exact (State.changesOnly.refl.then modKey_changes).then releaseKey_changes

theorem setLevel_changes {l : KeyLevel} : s.changesOnly (s.setLevel n l) [.li, .plt, .ku, .tru, .cp] := .ite .refl takeLevel_changes

theorem debounced_changes : s.changesOnly (s.debounced n) [.li, .plt, .ku, .tru, .cp] := .ite takeLevel_changes .refl

/-! ### The field bridge -/

theorem writeFieldNeed_changes : s.changesOnly (s.writeFieldNeed n) [.li, .plt, .cp] := writeNeed_changes

theorem fieldEvent_changes {o : ChanState} {c : FieldCause} : s.changesOnly (s.fieldEvent n o c) [.cp] := .ite raise_changes .refl

theorem closeTalk_changes : s.changesOnly (s.closeTalk n) [.li, .plt, .tru, .fb, .cp] :=
  .ite .refl ((State.changesOnly.refl.then modChan_changes).then closePath_changes)

theorem fill_changes : s.changesOnly (s.fill n) [.li, .plt, .tru, .fb, .cp] := by
  unfold State.fill
  dsimp only
  have h := (((State.changesOnly.refl (s := s) (l := [.li, .plt, .tru, .fb, .cp])).then
    (modChan_changes (n := n) (f := fun ch => { ch with state := .playing, offset := 0, last := zeroBlock, resync := false }))).then
    (fieldEvent_changes (n := n) (o := (s.chan n).state) (c := .filled))).then (writeFieldNeed_changes (n := n))
  exact .ite ((h.then modChan_changes).then openPath_changes) h

theorem frameFirst_changes {f : HeldFrame} : s.changesOnly (s.frameFirst n f) [.li, .plt, .tru, .fb, .cp] :=
  ((State.changesOnly.refl.then modChan_changes).then fieldEvent_changes).then writeFieldNeed_changes

theorem frameFilling_changes {f : HeldFrame} : s.changesOnly (s.frameFilling n f) [.li, .plt, .tru, .fb, .cp] :=
  .ite (State.changesOnly.refl.then modChan_changes) (.ite (State.changesOnly.refl.then modChan_changes)
    (.ite (State.changesOnly.refl.then modChan_changes)
      (.ite ((State.changesOnly.refl.then modChan_changes).then fill_changes) (State.changesOnly.refl.then modChan_changes))))

theorem framePlaying_changes {f : HeldFrame} : s.changesOnly (s.framePlaying n f) [.li, .plt, .tru, .fb, .cp] :=
  .ite (State.changesOnly.refl.then modChan_changes)
    (.ite (((State.changesOnly.refl.then modChan_changes).then fieldEvent_changes).then writeFieldNeed_changes)
      (.ite (State.changesOnly.refl.then modChan_changes) (State.changesOnly.refl.then modChan_changes)))

theorem frameAt_changes {f : HeldFrame} : s.changesOnly (s.frameAt n f) [.li, .plt, .tru, .fb, .cp] := by
  unfold State.frameAt
  split
  · exact frameFirst_changes
  · exact frameFirst_changes
  · exact frameFilling_changes
  · exact framePlaying_changes

theorem frameFor_changes {f : FieldFrame} : s.changesOnly (s.frameFor f n) [.li, .plt, .tru, .fb, .cp] := .ite frameAt_changes .refl

theorem frameArrived_changes {f : FieldFrame} : s.changesOnly (s.frameArrived f) [.li, .plt, .tru, .fb, .cp] :=
  .ite (.ite (frameFor_changes.then frameFor_changes) (State.changesOnly.refl.then modFb_changes)) .refl

theorem playout_changes : s.changesOnly (s.playout n) [.fb] := .ite modChan_changes .refl

theorem loseChannel_changes : s.changesOnly (s.loseChannel n) [.li, .plt, .tru, .fb, .cp] :=
  .ite ((((State.changesOnly.refl.then modChan_changes).then fieldEvent_changes).then closeTalk_changes).then writeFieldNeed_changes)
    .refl

theorem gather_changes {b : Block} : s.changesOnly (s.gather n b) [.fb] := .ite modFb_changes .refl

/-! ### The detector and the mixes -/

theorem evaluate_changes : s.changesOnly (s.evaluate n) [.vd] := modVox_changes

theorem hangEnd_changes : s.changesOnly (s.hangEnd n) [.vd] := .ite modVox_changes .refl

theorem writeMix_changes {m : MixInput} {b : Bool} : s.changesOnly (s.writeMix n m b) [.cia, .mx] :=
  (State.changesOnly.refl.then modMix_changes).then modFeed_changes

theorem deliver_changes {b : Block} : s.changesOnly (s.deliver n b) [.mx, .fb] :=
  .ite (State.changesOnly.refl.then modMix_changes) (State.changesOnly.refl.then gather_changes)

theorem mixFeed_changes : s.changesOnly (s.mixFeed n) [.cia, .mx, .tcu, .fb] :=
  ((State.changesOnly.refl.then writeMix_changes).then deliver_changes).then setTone_changes

theorem takeOutputs_changes : s.changesOnly s.takeOutputs [.mx] := modMx_changes

/-! ### The line interface -/

theorem startMark_changes : s.changesOnly (s.startMark n) [.li] := modLi_changes

theorem holdoffExpired_changes : s.changesOnly s.holdoffExpired [.li] := by
  unfold State.holdoffExpired
  split
  · exact .ite (startMark_changes.then modLi_changes) .refl
  · exact .refl

theorem intervalExpired_changes : s.changesOnly s.intervalExpired [.li] := by
  unfold State.intervalExpired
  split
  · exact .ite (startMark_changes.then modLi_changes) .refl
  · exact .refl

theorem enterActive_changes : s.changesOnly (s.enterActive n) [.li, .plt, .fb, .cp] :=
  .ite (((((State.changesOnly.refl.then modLi_changes).then modPeer_changes).then modFb_changes).then raise_changes).then offer_changes)
    ((((((State.changesOnly.refl.then modLi_changes).then modPeer_changes).then modFb_changes).then raise_changes).then
      offer_changes).then setNeed_changes)

theorem markDone_changes : s.changesOnly s.markDone [.li, .plt, .fb, .cp] := by
  unfold State.markDone
  split
  · exact .ite ((State.changesOnly.refl.then modLi_changes).then enterActive_changes) (State.changesOnly.refl.then modLi_changes)
  · exact .refl

theorem markMissed_changes : s.changesOnly s.markMissed [.li] := by
  unfold State.markMissed
  split
  · exact modLi_changes
  · exact .refl

theorem slotMissed_changes {l w : Nat} : s.changesOnly (s.slotMissed l n w) [.li, .plt, .tru, .cp] := by
  have h : s.changesOnly ((s.setLane l (.held w 0 0 0 true)).refreshWinner w) [.li, .plt, .tru, .cp] :=
    (State.changesOnly.refl.then setLane_changes).then refreshWinner_changes
  exact .ite (((h.then laneLost_changes).then modSource_changes).then pick_changes) (h.then modSource_changes)

theorem slotLost_changes : s.changesOnly (s.slotLost n) [.li, .plt, .tru, .cp] := by
  unfold State.slotLost
  split
  · dsimp only
    split
    · exact .ite ((State.changesOnly.refl.then modLi_changes).then slotMissed_changes) (State.changesOnly.refl.then modLi_changes)
    · exact State.changesOnly.refl.then modLi_changes
  · exact .refl

/-! ### The message window and lane slots -/

theorem openSlot_changes : s.changesOnly (s.openSlot n) [.li] := .ite (passTo_changes.then modLi_changes) .refl

theorem reportSent_changes : s.changesOnly (s.reportSent n) [.ku, .fb] :=
  .ite (State.changesOnly.refl.then modKey_changes) (State.changesOnly.refl.then modChan_changes)

theorem talkOpenSent_changes {m : TalkOpen} {d : Option Withdrawal} : s.changesOnly (s.talkOpenSent m d) [.li, .ku, .tru, .fb] := by
  unfold State.talkOpenSent
  dsimp only
  have h : s.changesOnly ((s.openSent m).reportSent m.tag) [.li, .ku, .tru, .fb] :=
    (State.changesOnly.refl.then openSent_changes).then reportSent_changes
  split
  · exact .ite (h.then closeOpened_changes) h
  · exact h

theorem sentNotice_changes {o : OutMsg} : s.changesOnly (s.sentNotice o) [.li, .plt, .ku, .tru, .fb, .cp] := by
  unfold State.sentNotice
  split
  · exact State.changesOnly.refl.then claimSent_changes
  · exact .ite (.ite (State.changesOnly.refl.then retryClose_changes) .refl) (State.changesOnly.refl.then talkOpenSent_changes)
  · exact State.changesOnly.refl.then moveSent_changes
  · exact State.changesOnly.refl.then closeSent_changes
  · exact State.changesOnly.refl.then callSent_changes
  · exact .refl

theorem withdrawn_changes {o : OutMsg} : s.changesOnly (s.withdrawn o) [.li, .plt, .tru, .cp] := by
  unfold State.withdrawn
  split
  · split
    · exact .ite (State.changesOnly.refl.then setPath_changes) .refl
    · exact .refl
  · exact .ite (State.changesOnly.refl.then retryClose_changes) freePath_changes
  · exact .ite (State.changesOnly.refl.then pick_changes) .refl
  · exact .refl

theorem slotDone_changes {b : Bool} : s.changesOnly (s.slotDone n b) [.li] := .ite modLi_changes .refl

theorem headerTaken_changes {t : Slot} : s.changesOnly (s.headerTaken n t) [.li, .plt, .cp] :=
  .ite .refl ((State.changesOnly.refl.then refreshPeer_changes).then headerHeard_changes)

theorem storeSlot_changes {b : Bool} {t : Slot} : s.changesOnly (s.storeSlot n b t) [.mx] := modMx_changes

theorem driveSlot_changes : s.changesOnly (s.driveSlot n) [.li] := by
  unfold State.driveSlot
  split
  · exact .ite (passTo_changes.then modLi_changes) .refl
  · exact .refl

theorem notePresence_changes {p : Nat} {f : Bool} {st : Nat} :
    s.changesOnly (State.notePresence n st p f s) [.li, .plt, .cia, .mu, .cp] := by
  unfold State.notePresence
  dsimp only
  have h : ∀ u : State, s.changesOnly u [.li, .plt, .cia, .mu, .cp] → ∀ c : Prop, [Decidable c] →
      ∀ g e, s.changesOnly (if c then (u.modPeer n g).raise e else u.modPeer n g) [.li, .plt, .cia, .mu, .cp] := fun u hu c _ g e =>
    .ite ((hu.then modPeer_changes).then raise_changes) (hu.then modPeer_changes)
  exact h _ (.ite peerGone_changes .refl) _ _ _

/-! ### Due steps -/

theorem presenceFalls_changes : s.changesOnly s.presenceFalls [.li] := .ite offer_changes .refl

theorem peerExpired_changes : s.changesOnly (s.peerExpired n) [.li, .plt, .cia, .mu, .cp] := .ite peerGone_changes .refl

theorem laneExpired_changes : s.changesOnly (s.laneExpired n) [.li, .plt, .cp] := by
  unfold State.laneExpired
  split
  · exact .ite ((State.changesOnly.refl.then setLane_changes).then laneFreed_changes) .refl
  · exact .refl

theorem claimWon_changes : s.changesOnly (s.claimWon n) [.li, .plt, .tru] := by
  unfold State.claimWon
  split
  · exact .ite (((State.changesOnly.refl.then setLane_changes).then modSource_changes).then handOver_changes) .refl
  · exact .refl

theorem retireDue_changes : s.changesOnly s.retireDue [.li, .tru, .cp] := .ite retire_changes .refl

theorem refreshDue_changes : s.changesOnly (s.refreshDue n) [.li, .tru] := .ite announceTally_changes .refl

/-- A due step that was not left apart is no step. -/
theorem State.takeOwed_not {d : Due} (h : d ∉ s.owed) : s.takeOwed d = s := by
  unfold State.takeOwed
  rw [if_neg (by simpa using h)]

/-- A due step that was left apart is taken, once. -/
theorem State.takeOwed_of_mem {d : Due} (h : d ∈ s.owed) : s.takeOwed d = State.takeDue { s with owed := s.owed.erase d } d := by
  unfold State.takeOwed
  rw [if_pos (by simpa using h)]

/-- The command of a clock's tone request sends the request that was left, or changes nothing where none was (R163). -/
theorem State.takeTone_cases (s : State) (c : Nat) :
    (∃ d ∈ s.owed, Due.isToneOf c d = true ∧ s.takeTone c = State.takeDue { s with owed := s.owed.erase d } d)
      ∨ ((∀ d ∈ s.owed, Due.isToneOf c d = false) ∧ s.takeTone c = s) := by
  unfold State.takeTone
  split
  · rename_i d h
    exact .inl ⟨d, List.mem_of_find?_eq_some h, List.find?_some h, State.takeOwed_of_mem (List.mem_of_find?_eq_some h)⟩
  · rename_i h
    exact .inr ⟨by simpa using h, rfl⟩

/-- The zero of a clock comes after the tone request of its test, and does nothing where none was left (R164). -/
theorem State.takeZero_cases (s : State) (c : Nat) :
    (Due.cueZero c ∈ s.owed ∧ s.takeZero c = (s.takeTone c).takeOwed (.cueZero c)) ∨ (Due.cueZero c ∉ s.owed ∧ s.takeZero c = s) := by
  unfold State.takeZero
  split
  · exact .inl ⟨by simp_all, rfl⟩
  · exact .inr ⟨by simp_all, rfl⟩

/-- A frame finds no loss that was left: what it does is the arrival alone (R167, R175). -/
theorem State.frameComes_of_no_loss (s : State) (f : FieldFrame) (h : ∀ c, Due.fieldLoss c ∉ s.owed) :
    s.frameComes f = s.frameArrived f := by
  have keep : ∀ c, s.lossFirst f c = s := fun c => by
    unfold State.lossFirst
    split
    · exact State.takeOwed_not (h c)
    · rfl
  unfold State.frameComes
  simp [keep]

variable (s) in
/-- A step that falls due is left apart, or taken at once. -/
theorem State.raiseDue_cases (apart : List DueKind) (d : Due) :
    (d.kind ∈ apart ∧ s.raiseDue apart d = { s with owed := s.owed ++ [d] }) ∨ (d.kind ∉ apart ∧ s.raiseDue apart d = s.takeDue d) := by
  unfold State.raiseDue
  by_cases h : d.kind ∈ apart
  · exact .inl ⟨h, by rw [if_pos (by simpa using h)]⟩
  · exact .inr ⟨h, by rw [if_neg (by simpa using h)]⟩

/-! ### Entries to line states keep the queue of commands -/

@[simp] theorem State.enterOffline_pending : s.enterOffline.pending = s.pending := rfl
@[simp] theorem State.enterDead_pending (st : LineState) (d : Nat) : (s.enterDead st d).pending = s.pending := rfl
@[simp] theorem State.silence_pending (c : SilencedCause) : (s.silence c).pending = s.pending := rfl
@[simp] theorem State.started_pending (c : Configuration) (pins : List KeyLevel) : (s.started c pins).pending = s.pending := rfl

theorem leavePath_changes : s.changesOnly (s.leavePath n) [.li, .plt, .tru, .cp] := by
  unfold State.leavePath
  split
  · exact .refl
  · split
    · exact freePath_changes
    · exact .ite .refl freePath_changes
    · exact State.changesOnly.refl.then closeOpened_changes
    · exact .ite ((State.changesOnly.refl.then setPath_changes).then offer_changes) (State.changesOnly.refl.then setPath_changes)

theorem leavePaths_changes : s.changesOnly s.leavePaths [.li, .plt, .tru, .cp] :=
  (State.changesOnly.fold (fun _ _ => leavePath_changes) .refl _).then modTru_changes

theorem leaveField_changes : s.changesOnly s.leaveField [.li, .plt, .tru, .fb, .cp] :=
  ((((State.changesOnly.refl.then closeTalk_changes).then closeTalk_changes).then modFb_changes).then clearNeed_changes).then
    clearNeed_changes

theorem beginLeaving_changes : s.changesOnly s.beginLeaving [.li, .plt, .ku, .tru, .fb, .cp] := by
  unfold State.beginLeaving
  dsimp only
  refine ((((State.changesOnly.then ?_ leaveLanes_changes).then leavePaths_changes).then leaveField_changes).then clearNeed_changes).then
    raise_changes
  exact ⟨rfl, fun p hp => by cases p <;> first | rfl | simp at hp⟩

@[simp] theorem State.endTest_pending : s.endTest.pending = s.pending := by unfold State.endTest; split <;> rfl

@[simp] theorem State.enterLeaving_pending : s.enterLeaving.pending = s.pending := by
  unfold State.enterLeaving
  rw [State.endTest_pending]
  exact beginLeaving_changes.1

/-! ### What a response and a refusal are -/

@[simp] theorem State.respond_eq (r : Response) : s.respond r = s.answered r := rfl
@[simp] theorem State.refuse_eq (r : RefuseReason) : s.refuse r = s.refusedWith r := rfl

variable (s) in
/-- Everything a command of the port can do before its own effect: BUSY in LEAVING, STATE where it is not taken, ARG for an argument. -/
theorem State.command_cases (taken badArg : Bool) (run : State → State) :
    (s.leaving = true ∧ s.command taken badArg run = s.refusedWith .busy)
      ∨ (s.leaving = false ∧ taken = false ∧ s.command taken badArg run = s.refusedWith .state)
      ∨ (s.leaving = false ∧ taken = true ∧ badArg = true ∧ s.command taken badArg run = s.refusedWith .arg)
      ∨ (s.leaving = false ∧ taken = true ∧ badArg = false ∧ s.command taken badArg run = run s) := by
  unfold State.command
  cases s.leaving <;> cases taken <;> cases badArg <;> simp

variable (s) in
/-- Everything a command that offers a message can do: QUEUE and nothing else, or the message in its place, the command's own change and
ACCEPTED. -/
theorem State.offerCommand_cases (m : Message) (after : State → State) :
    (s.admits m = false ∧ s.offerCommand m after = s.refusedWith .queue)
      ∨ (s.admits m = true ∧ s.offerCommand m after =
          (after (s.modLi fun li => { li with queue := insertMsg m li.queue })).answered .accepted) := by
  unfold State.offerCommand
  rcases s.offer_cases m with ⟨h, e⟩ | ⟨h, e⟩ <;> simp [h, e, State.accept]

variable (s) in
/-- Everything a heard message can do: nothing, an entry to SILENCED, or the refresh of its sender and, in ACTIVE, its own effect; a
message with the own number has that effect alone. -/
theorem State.hear_cases (env : Envelope) (m : Message) (refresh listen act : State → State) :
    s.hear env m refresh listen act = s
      ∨ (∃ cause, s.hears = true ∧ env.good = true ∧ env.sender = s.number ∧ s.ownNumberCause env m = some cause
          ∧ s.hear env m refresh listen act = s.silence cause)
      ∨ (s.active = true ∧ env.good = true ∧ env.sender = s.number ∧ malformed s.laneCount env m = false
          ∧ s.hear env m refresh listen act = act s)
      ∨ (s.hears = true ∧ env.good = true ∧ env.sender ≠ s.number ∧ malformed s.laneCount env m = false
          ∧ s.hear env m refresh listen act = (if s.active then act (listen (refresh s)) else listen (refresh s))) := by
  unfold State.hear
  dsimp only
  split
  · next h =>
    simp only [Bool.and_eq_true] at h
    split
    · next hn =>
      cases hc : s.ownNumberCause env m with
      | some cause => exact .inr (.inl ⟨cause, h.1, h.2, hn, rfl, rfl⟩)
      | none =>
        have hl : s.listening = false := by
          unfold State.ownNumberCause at hc
          by_cases hl : s.listening = true
          · simp [hl] at hc
          · simpa using hl
        have ha : s.active = true := by simpa [State.hears, hl] using h.1
        cases hb : malformed s.laneCount env m with
        | true => exact .inl (by simp)
        | false => exact .inr (.inr (.inl ⟨ha, h.2, hn, rfl, by simp⟩))
    · cases hb : malformed s.laneCount env m with
      | true => exact .inl (by simp)
      | false => exact .inr (.inr (.inr ⟨h.1, h.2, by assumption, rfl, by simp⟩))
  · exact .inl rfl

end

end Sys2Proof.Machine
end

