-- ==== Sys2Proof/Laws/Picks.lean ====
section
/-! SUPPORT. What a pick can do (R32, R36): `State.freeLane` is the lowest lane that `State.pickable` allows, `State.pick` does what
`State.picks` says, and `State.repick` what `State.losesPick` says. -/

namespace Sys2Proof.Machine

variable {s : State} {n l : Nat}

/-- The test of `State.freeLane` is `State.pickable`, for a lane of the view. -/
theorem pickable_iff (h : l < s.plt.lanes.length) :
    s.pickable n l ↔ (s.lane l == .free && !s.pickedByOther n l) = true := by
  simp [State.pickable, State.pickedByOther, h]

/-- The lane that a source picks: the lowest it can. -/
theorem freeLane_eq_some : s.freeLane n = some l ↔ s.pickable n l ∧ ∀ k, k < l → ¬s.pickable n k := by
  unfold State.freeLane
  rw [List.find?_range_eq_some]
  constructor
  · rintro ⟨h, m, low⟩
    have hl := List.mem_range.mp m
    exact ⟨(pickable_iff hl).mpr h, fun k hk p => by
      have := low k hk
      rw [(pickable_iff (hk.trans hl)).mp p] at this
      simp at this⟩
  · rintro ⟨p, low⟩
    have hl : l < s.plt.lanes.length := p.1
    refine ⟨(pickable_iff hl).mp p, List.mem_range.mpr hl, fun k hk => ?_⟩
    have := low k hk
    rw [pickable_iff (hk.trans hl)] at this
    simpa only [Bool.not_eq_true', Bool.not_eq_true] using this

/-- A source that can pick no lane. -/
theorem freeLane_eq_none : s.freeLane n = none ↔ ∀ l, ¬s.pickable n l := by
  unfold State.freeLane
  rw [List.find?_eq_none]
  constructor
  · intro h l p
    exact h l (List.mem_range.mpr p.1) ((pickable_iff p.1).mp p)
  · intro h l m t
    exact h l ((pickable_iff (List.mem_range.mp m)).mpr t)

/-- A source of the table reads back as it was written, whatever happens beside the table. -/
theorem source_modSource {t : State} (f : SourceRec → SourceRec) (h : n < s.plt.sources.length)
    (e : t.plt = (s.modSource n f).plt) : t.source n = f (s.source n) := by
  simp [State.source, e, h]

/-- A pick in ACTIVE of a source that is not WAITING does what `State.picks` says (R32, R36). -/
theorem pick_picks (active : s.li.lineState = .active) (h : n < s.plt.sources.length) (fresh : (s.source n).phase ≠ .waiting) :
    s.picks (s.pick n) n [] := by
  have phase : ∀ (t : State) (x : Phase), t.plt = (s.modSource n fun r => { r with phase := x }).plt → (t.source n).phase = x :=
    fun t x e => by rw [source_modSource _ h e]
  constructor
  · intro l p low
    simp only [State.pick, freeLane_eq_some.mpr ⟨p, low⟩]
    refine ⟨phase _ _ (by simp), by simp [State.told], fun room => ?_⟩
    rcases State.offer_cases (s.modSource n fun r => { r with phase := .pending l }) (.laneClaim l n) with ⟨a, e⟩ | ⟨a, e⟩
    · exact ⟨_, by rw [e]; exact (mem_insertMsg ..).mpr (.inl rfl), rfl⟩
    · simp [State.admits, Message.reply, queuePlaces, active] at a; omega
  · intro none
    simp only [State.pick, freeLane_eq_none.mpr none, beq_iff_eq, fresh, if_false]
    exact ⟨phase _ _ rfl, rfl⟩


/-- The test of a queued claim is `OutMsg.isClaim`. -/
theorem claims_iff (o : OutMsg) : o.claims n l = true ↔ o.isClaim n l := by
  simp [OutMsg.claims, OutMsg.isClaim, isClaim]

/-- Where every locked claim is an abandoned one, a withdrawal of the claims only takes messages out. -/
theorem withdrawFrom_claims (q : List OutMsg) (h : ∀ o ∈ q, o.isClaim n l → o.locked = false) :
    withdrawFrom (isClaim n l) .repick q = q.filter fun o => !(o.msg == .laneClaim l n && !o.locked) := by
  induction q with
  | nil => rfl
  | cons o q ih =>
    have ih := ih fun x m => h x (List.mem_cons_of_mem _ m)
    have ho := h o List.mem_cons_self
    rcases o with ⟨m, locked, drop⟩
    simp only [withdrawFrom, isClaim, List.filterMap_cons, List.filter_cons, OutMsg.isClaim] at ih ho ⊢
    rw [ih]
    by_cases c : m = .laneClaim l n <;> cases locked <;> simp_all [laterDrop]

/-- A pick leaves the lanes as they are. -/
@[simp] theorem pick_lanes (s : State) (n : Nat) : (s.pick n).plt.lanes = s.plt.lanes := by
  unfold State.pick
  split
  · simp
  · split <;> simp

/-- What stands in the queue after a pick: what stood there, and a claim for a lane that can be picked. -/
theorem mem_pick_queue {o : OutMsg} (m : o ∈ (s.pick n).li.queue) : o ∈ s.li.queue ∨ ∃ k, s.lane k = .free ∧ o.msg = .laneClaim k n := by
  unfold State.pick at m
  split at m
  · next k e =>
    rcases State.offer_cases (s.modSource n fun r => { r with phase := .pending k }) (.laneClaim k n) with ⟨-, e'⟩ | ⟨-, e'⟩
    · rw [e'] at m
      rcases (mem_insertMsg ..).mp m with rfl | m
      · exact .inr ⟨k, (freeLane_eq_some.mp e).1.2.1, rfl⟩
      · exact .inl m
    · rw [e'] at m; exact .inl m
  · split at m <;> exact .inl m

/-- A source whose picked lane is not FREE any more does what `State.losesPick` says (R32). -/
theorem repick_losesPick (active : s.li.lineState = .active) (h : n < s.plt.sources.length) (p : (s.source n).phase = .pending l)
    (taken : s.lane l ≠ .free) : s.losesPick (s.repick n l) n l [] := by
  have queued : s.claimQueued n l = true ↔ ∃ o ∈ s.li.queue, o.isClaim n l := by
    simp [State.claimQueued, List.any_eq_true, claims_iff]
  have locked : s.claimLocked n l = true ↔ ∃ o ∈ s.li.queue, o.isClaim n l ∧ o.locked = true := by
    simp [State.claimLocked, List.any_eq_true, claims_iff, and_comm]
  refine ⟨fun q free => ?_, fun q => ?_, fun none => ?_⟩
  · have nl : s.claimLocked n l = false := by
      rw [Bool.eq_false_iff, Ne, locked]; rintro ⟨o, m, c, k⟩; simp [free o m c] at k
    have e : s.repick n l = (s.withdraw (isClaim n l) .repick).pick n := by
      simp [State.repick, p, queued.mpr q, nl]
    have rest := withdrawFrom_claims s.li.queue free
    rw [e]
    constructor
    · intro o m c
      rcases mem_pick_queue m with m | ⟨k, f, c'⟩
      · rw [State.withdraw_li, rest] at m
        obtain ⟨m, keep⟩ := List.mem_filter.mp m
        simp [c.1, free o m c] at keep
      · have : k = l := by have := c'.symm.trans c.1; injection this
        subst this; exact taken f
    · have u : s.withdraw (isClaim n l) .repick
          = { s with li := { s.li with queue := s.li.queue.filter fun o => !(o.msg == .laneClaim l n && !o.locked) } } := by
        simp only [State.withdraw, State.modLi, rest]
      simp only [pick_lanes, State.withdraw_plt]
      rw [u]
      exact pick_picks active h (by simp [State.source] at p ⊢; simp [p])
  · have e : s.repick n l = s.withdraw (isClaim n l) .repick := by
      obtain ⟨o, m, c, k⟩ := q
      simp [State.repick, p, queued.mpr ⟨o, m, c⟩, locked.mpr ⟨o, m, c, k⟩]
    rw [e]
    refine ⟨rfl, rfl, fun o m c k d => ?_⟩
    rw [State.withdraw_li]
    exact List.mem_filterMap.mpr ⟨o, m, by simp [isClaim, c.1, k, d, laterDrop]⟩
  · have nq : s.claimQueued n l = false := by
      rw [Bool.eq_false_iff, Ne, queued]; rintro ⟨o, m, c⟩; exact none o m c
    have e : s.repick n l = s := by simp [State.repick, nq]
    rw [e]; exact ⟨rfl, rfl, rfl⟩

end Sys2Proof.Machine
end

