-- ==== Sys2Proof/Tests/Slice0.lean ====
section
/-! SUPPORT. The model's own tests: the operand checks, the formats and small tables against the manual, single steps of commands on
small states, and for every statement of Certificates/Slice0 a state and operands that meet its hypotheses, clause by clause. -/

namespace Sys2Proof.Tests

open Sys2Proof Sys2Proof.Machine

set_option Elab.async false
-- One proof after another: a thread for each of many short proofs would reserve more memory than a build has.

/-! ### WellFormed: each check refuses an ill-formed term -/

/-- An envelope of station 5, of this kind and body length, with a good check. -/
def env (urgency kind length : Nat) : Envelope := ⟨true, false, 7 - urgency, 5, kind, length⟩

/-- 48 zeros from station 5 in a slot of its S0. -/
def quietSlot : Slot := ⟨5, 0, true, 0, zeroBlock⟩

/-- Twelve pins UP. -/
def pinsUp : List KeyLevel := List.replicate 12 .up

theorem test_wf_reset_and_start :
    (Instr.hardwareReset 63 3).wellFormed = true ∧ (Instr.hardwareReset 64 1).wellFormed = false
      ∧ (Instr.hardwareReset 1 4).wellFormed = false ∧ (Instr.start [255] pinsUp).wellFormed = true
      ∧ (Instr.start [256] pinsUp).wellFormed = false ∧ (Instr.start [] [.up]).wellFormed = false := by decide +kernel

theorem test_wf_port_commands :
    (Instr.keySetDown 255 255).wellFormed = true ∧ (Instr.keySetDown 256 1).wellFormed = false
      ∧ (Instr.keySetDown 1 0).wellFormed = false ∧ (Instr.keySetDown 1 256).wellFormed = false
      ∧ (Instr.keySetUp 256).wellFormed = false ∧ (Instr.callAck 256 0 0).wellFormed = false
      ∧ (Instr.callAck 0 256 0).wellFormed = false ∧ (Instr.callAck 0 0 256).wellFormed = false
      ∧ (Instr.tallySetOn 256 1).wellFormed = false ∧ (Instr.tallySetOn 1 0).wellFormed = false
      ∧ (Instr.tallySetOn 1 256).wellFormed = false ∧ (Instr.tallySetOff 256).wellFormed = false
      ∧ (Instr.cueStart 256 1 0).wellFormed = false ∧ (Instr.cueStart 1 256 0).wellFormed = false
      ∧ (Instr.cueStart 1 1 256).wellFormed = false ∧ (Instr.cueStop 256).wellFormed = false
      ∧ (Instr.memoDiscard 256 0 0).wellFormed = false ∧ (Instr.memoDiscard 0 256 0).wellFormed = false
      ∧ (Instr.memoDiscard 0 0 256).wellFormed = false ∧ (Instr.transactionAbort [256]).wellFormed = false := by
  decide +kernel

theorem test_wf_queries :
    [Instr.queryLine 256, .queryPeer 256, .queryLane 256, .querySource 256, .queryKey 256, .queryPath 256, .queryFeed 256,
      .queryMemo 256, .queryField 256, .queryCue 256, .queryClip 256].all (fun c => !c.wellFormed) = true
      ∧ (Instr.queryClip 255).wellFormed = true := by decide +kernel

/-- A command of the set is no row of its own under its right length; a QUERY of item 11 is unreadable (R195, R210). -/
theorem test_wf_unknown_command :
    (Instr.unknownCommand 11 []).wellFormed = true ∧ (Instr.unknownCommand 2 [0]).wellFormed = true
      ∧ (Instr.unknownCommand 9 [11, 0]).wellFormed = true ∧ (Instr.unknownCommand 9 [10, 0]).wellFormed = false
      ∧ (Instr.unknownCommand 2 []).wellFormed = false ∧ (Instr.unknownCommand 256 []).wellFormed = false
      ∧ (Instr.unknownCommand 11 [256]).wellFormed = false := by decide +kernel

theorem test_wf_line_events :
    (Instr.cycleOpening [.up] []).wellFormed = false ∧ (Instr.markReceived ⟨true, false, 64, 1⟩ []).wellFormed = false
      ∧ (Instr.markReceived ⟨true, false, 1, 4⟩ []).wellFormed = false ∧ (Instr.messageSlot 4).wellFormed = false
      ∧ (Instr.messageSlot 3).wellFormed = true ∧ (Instr.laneSlotTransmit 24).wellFormed = false
      ∧ (Instr.laneSlotReceived 23 true false quietSlot).wellFormed = true
      ∧ (Instr.laneSlotReceived 24 true false quietSlot).wellFormed = false
      ∧ (Instr.slotHeaderLost 64).wellFormed = false := by decide +kernel

theorem test_wf_slot :
    quietSlot.wellFormed = true ∧ { quietSlot with holder := 64 }.wellFormed = false
      ∧ { quietSlot with source := 8 }.wellFormed = false ∧ { quietSlot with programme := 16 }.wellFormed = false
      ∧ { quietSlot with samples := [0] }.wellFormed = false
      ∧ { quietSlot with samples := List.replicate 48 8388607 }.wellFormed = true
      ∧ { quietSlot with samples := List.replicate 48 8388608 }.wellFormed = false
      ∧ { quietSlot with samples := List.replicate 48 (-8388608) }.wellFormed = true
      ∧ { quietSlot with samples := List.replicate 48 (-8388609) }.wellFormed = false := by decide +kernel

/-- The envelope bears the row's kind, or a code of no kind (R208). -/
theorem test_wf_envelope :
    (env 1 0 22).wellFormed 0 = true ∧ (env 1 11 22).wellFormed 0 = true ∧ (env 1 1 22).wellFormed 0 = false
      ∧ (env 1 16 22).wellFormed 0 = false ∧ { env 1 0 22 with urgencyCode := 8 }.wellFormed 0 = false
      ∧ { env 1 0 22 with sender := 64 }.wellFormed 0 = false ∧ { env 1 0 22 with bodyLength := 256 }.wellFormed 0 = false := by
  decide +kernel

theorem test_wf_presence_and_lane_messages :
    (Instr.presenceReceived (env 1 0 22) false 65535 true 15).wellFormed = true
      ∧ (Instr.presenceReceived (env 1 0 22) false 65536 true 8).wellFormed = false
      ∧ (Instr.presenceReceived (env 1 0 22) false 0 true 16).wellFormed = false
      ∧ (Instr.laneClaimReceived (env 5 1 8) 31 7).wellFormed = true
      ∧ (Instr.laneClaimReceived (env 5 1 8) 32 0).wellFormed = false
      ∧ (Instr.laneClaimReceived (env 5 1 8) 0 8).wellFormed = false := by decide +kernel

/-- A TALK-OPEN of tag 3, serial 9, level 4, lane 2 of S0. -/
def openTo (level : Nat) (memo : Bool) (dests : List Nat) : TalkOpen := ⟨0, 3, 9, level, memo, false, 2, dests⟩

theorem test_wf_talk_messages :
    (openTo 4 false [70]).wellFormed = true ∧ { openTo 4 false [70] with source := 8 }.wellFormed = false
      ∧ { openTo 4 false [70] with tag := 16 }.wellFormed = false ∧ { openTo 4 false [70] with serial := 256 }.wellFormed = false
      ∧ (openTo 8 false [70]).wellFormed = false ∧ { openTo 4 false [70] with lane := 32 }.wellFormed = false
      ∧ (openTo 4 false (List.replicate 8 70)).wellFormed = false ∧ (openTo 4 false [256]).wellFormed = false
      ∧ (Instr.talkMoveReceived (env 6 3 8) 8 0).wellFormed = false ∧ (Instr.talkMoveReceived (env 6 3 8) 0 32).wellFormed = false
      ∧ (Instr.talkCloseReceived (env 7 4 7) 8 0).wellFormed = false
      ∧ (Instr.talkCloseReceived (env 7 4 7) 0 16).wellFormed = false := by decide +kernel

theorem test_wf_answers :
    (Instr.answerReceived (env 6 5 37) 12 3 9 [⟨5, 70, 3, 7⟩]).wellFormed = true
      ∧ (Instr.answerReceived (env 6 5 37) 64 3 9 [⟨5, 70, 3, 7⟩]).wellFormed = false
      ∧ (Instr.answerReceived (env 6 5 37) 12 16 9 [⟨5, 70, 3, 7⟩]).wellFormed = false
      ∧ (Instr.answerReceived (env 6 5 37) 12 3 256 [⟨5, 70, 3, 7⟩]).wellFormed = false
      ∧ (Instr.answerReceived (env 6 5 37) 12 3 9 (List.replicate 8 ⟨5, 70, 3, 7⟩)).wellFormed = false
      ∧ (WireItem.mk 8 70 3 7).wellFormed = false ∧ (WireItem.mk 5 256 3 7).wellFormed = false
      ∧ (WireItem.mk 5 70 4 7).wellFormed = false ∧ (WireItem.mk 5 70 3 8).wellFormed = false
      ∧ (Instr.feedNoticeReceived (env 6 6 17) 7 63 7 3 7).wellFormed = true
      ∧ (Instr.feedNoticeReceived (env 6 6 17) 8 12 0 1 1).wellFormed = false
      ∧ (Instr.feedNoticeReceived (env 6 6 17) 0 64 0 1 1).wellFormed = false
      ∧ (Instr.feedNoticeReceived (env 6 6 17) 0 12 8 1 1).wellFormed = false
      ∧ (Instr.feedNoticeReceived (env 6 6 17) 0 12 0 4 1).wellFormed = false
      ∧ (Instr.feedNoticeReceived (env 6 6 17) 0 12 0 1 8).wellFormed = false := by decide +kernel

theorem test_wf_calls_tallies_and_cues :
    (Instr.callReceived (env 3 7 16) 15 1 [70]).wellFormed = true ∧ (Instr.callReceived (env 3 7 16) 16 1 [70]).wellFormed = false
      ∧ (Instr.callReceived (env 3 7 16) 0 2 [70]).wellFormed = false
      ∧ (Instr.callReceived (env 3 7 16) 0 0 (List.replicate 8 70)).wellFormed = false
      ∧ (Instr.callReceived (env 3 7 16) 0 0 [256]).wellFormed = false
      ∧ (Instr.callAckReceived (env 3 8 13) 64 0 0).wellFormed = false ∧ (Instr.callAckReceived (env 3 8 13) 12 8 0).wellFormed = false
      ∧ (Instr.callAckReceived (env 3 8 13) 12 0 16).wellFormed = false ∧ (Instr.tallyReceived (env 2 9 9) 256 true).wellFormed = false
      ∧ (Instr.cueReceived (env 3 10 16) 70 127 1).wellFormed = true ∧ (Instr.cueReceived (env 3 10 16) 256 1 0).wellFormed = false
      ∧ (Instr.cueReceived (env 3 10 16) 70 0 0).wellFormed = false ∧ (Instr.cueReceived (env 3 10 16) 70 128 0).wellFormed = false
      ∧ (Instr.cueReceived (env 3 10 16) 70 1 2).wellFormed = false ∧ (Instr.cueStopReceived (env 3 10 16) 256 0).wellFormed = false
      ∧ (Instr.cueStopReceived (env 3 10 16) 70 2).wellFormed = false := by decide +kernel

theorem test_wf_due_steps :
    [Instr.debounceComplete 12, .peerAgingAbsent 0, .peerAgingAbsent 63, .laneAgeExpiry 24, .claimWindowEnd 24, .tallyRefresh 256,
      .deferExpiry 6 5 0, .deferExpiry 0 0 0, .deferExpiry 0 63 0, .deferExpiry 0 5 4, .onAirExpiry 6 5 70, .onAirExpiry 0 63 70,
      .onAirExpiry 0 0 70, .onAirExpiry 0 5 256, .callRepeat 6 5 0, .callRepeat 0 63 0, .callExpiry 0 5 12, .callExpiry 0 0 0,
      .cueToneRequest 4, .cueClockZero 4, .tonePhaseEnd 6, .hangExpiry 4, .fieldLoss 2].all (fun c => !c.wellFormed) = true := by
  decide +kernel

/-- A field frame of channel A's and B's constant samples. -/
def frame (number flags : Nat) : FieldFrame := ⟨965, true, number, flags, List.replicate 240 1000, List.replicate 240 (-7)⟩

theorem test_wf_samples_and_frames :
    (frame 65535 255).wellFormed = true ∧ (frame 65536 1).wellFormed = false ∧ (frame 0 256).wellFormed = false
      ∧ { frame 0 1 with samplesA := [] }.wellFormed = false ∧ { frame 0 1 with samplesB := [] }.wellFormed = false
      ∧ { frame 0 1 with samplesA := List.replicate 240 32768 }.wellFormed = false
      ∧ { frame 0 1 with samplesB := List.replicate 240 (-32769) }.wellFormed = false
      ∧ (Instr.audioInputSampled 8388607 0 (-8388608)).wellFormed = true ∧ (Instr.audioInputSampled 8388608 0 0).wellFormed = false
      ∧ (Instr.audioInputSampled 0 8388608 0).wellFormed = false ∧ (Instr.audioInputSampled 0 0 (-8388609)).wellFormed = false := by
  decide +kernel

/-! ### Formats, worked out by hand from the chapter (R203–R212) -/

/-- The check is CRC-16 with polynomial 1021H and start FFFFH, most significant bit first, whose published check value over the digits
1 to 9 is 29B1H (R206). -/
theorem test_crc_check_value : crc16 (bitsOfBytes [49, 50, 51, 52, 53, 54, 55, 56, 57]) = 0x29B1 := by decide +kernel

/-- TALK-CLOSE of S1, tag 12, from station 5: urgency code 0, sender, kind 4, length 7, source, tag (R205). -/
theorem test_talk_close_bits :
    (Message.talkClose 1 12).envelopeBits 5 ++ (Message.talkClose 1 12).bodyBits
      = [false, false, false, false, false, false, true, false, true, false, true, false, false,
         false, false, false, false, false, true, true, true, false, false, true, true, true, false, false] := by decide +kernel

/-- LANE-CLAIM of lane 9 for S4: urgency code 2, kind 1, length 8 (R205). -/
theorem test_lane_claim_bits :
    (Message.laneClaim 9 4).envelopeBits 62 ++ (Message.laneClaim 9 4).bodyBits
      = [false, true, false, true, true, true, true, true, false, false, false, false, true,
         false, false, false, false, true, false, false, false, false, true, false, false, true, true, false, false] := by
  decide +kernel

/-- TALLY of destination 255, ON: urgency code 5, kind 9, length 9 (R205). -/
theorem test_tally_bits :
    (Message.tally 255 true).envelopeBits 1 ++ (Message.tally 255 true).bodyBits
      = [true, false, true, false, false, false, false, false, true, true, false, false, true,
         false, false, false, false, true, false, false, true,
         true, true, true, true, true, true, true, true, true] := by decide +kernel

/-- The mark of station 12 under FINE: a start bit, six bits of number, two of code, sixteen of check (R204). -/
theorem test_mark_bits : (markBits 12 1).take 9 = [false, false, false, true, true, false, false, false, true]
    ∧ (markBits 12 1).length = 25 := by decide +kernel

/-- A message slot begins at bit 50 and each is 200 bits; lane slots begin at bit 900, 1200 bits each under FINE and 800 under DENSE
(R203). -/
theorem test_slot_positions : messageSlotBit 0 = 50 ∧ messageSlotBit 3 = 650 ∧ laneSlotBit 1 0 = 900 ∧ laneSlotBit 1 15 = 18900
    ∧ laneSlotBit 2 23 = 19300 := by decide +kernel

/-- A heard message is read back as it was sent, and one with a bit turned has a failing check (R206). -/
theorem test_hear_message :
    hearMessage false ((Message.cue 70 5 1).bits 5) = some (.cueReceived ⟨true, false, 4, 5, 10, 16⟩ 70 5 1)
      ∧ hearMessage false ((Message.cue 70 0 0).bits 5) = some (.cueStopReceived ⟨true, false, 4, 5, 10, 16⟩ 70 0)
      ∧ hearMessage false (((Message.talkMove 1 2).bits 5).set 22 true) = some (.talkMoveReceived ⟨false, false, 1, 5, 3, 8⟩ 5 2) := by
  decide +kernel

theorem test_hear_mark :
    hearMark true (markBits 62 2) [] = some (.markReceived ⟨true, true, 62, 2⟩ [])
      ∧ hearMark false ((markBits 62 2).set 10 !((markBits 62 2).getD 10 true)) [] = some (.markReceived ⟨false, false, 62, 2⟩ []) := by
  decide +kernel

/-- A lane slot's header: holder 5, S0, the quiet flag, programme 0 (R204). -/
theorem test_slot_header_bits :
    (quietSlot.bits 2).take 15 = [false, false, false, false, true, false, true, false, false, false, true, false, false, false, false] := by
  decide +kernel

/-- Samples are two's complement, most significant bit first: 16 bits under DENSE, 24 under FINE (R204). -/
theorem test_sample_bits :
    signedBits (sampleWidth 2) (-2) = List.replicate 15 true ++ [false] ∧ (signedBits (sampleWidth 1) 1).length = 24
      ∧ takeSamples 16 2 (signedBits 16 (-32768) ++ signedBits 16 32767) = [-32768, 32767] := by decide +kernel

/-- Frame 258 with channel B alone: number most significant byte first, flags 2, the samples of A and then of B (R207). -/
theorem test_frame_bytes :
    let bs := frameBody 258 false true (List.replicate 240 1) (List.replicate 240 (-2))
    bs.take 5 = [1, 2, 2, 0, 1] ∧ (bs.drop 481).take 4 = [0, 1, 255, 254] := by decide +kernel

/-- Commands are read by code, length and arguments (R209, R210). -/
theorem test_receive_command :
    receiveCommand [2, 0, 0] pinsUp = .stop ∧ receiveCommand [3, 0, 2, 4, 1] pinsUp = .keySetDown 4 1
      ∧ receiveCommand [3, 0, 2, 4, 0] pinsUp = .keySetUp 4 ∧ receiveCommand [5, 0, 2, 70, 0] pinsUp = .tallySetOff 70
      ∧ receiveCommand [6, 0, 3, 70, 99, 1] pinsUp = .cueStart 70 99 1 ∧ receiveCommand [9, 0, 2, 10, 5] pinsUp = .queryClip 5
      ∧ receiveCommand [9, 0, 2, 11, 5] pinsUp = .unknownCommand 9 [11, 5] ∧ receiveCommand [3, 0, 2, 4] pinsUp = .transactionAbort [3, 0, 2, 4]
      ∧ receiveCommand [0, 0, 0] pinsUp = .unknownCommand 0 [] ∧ receiveCommand [77, 0, 1, 5] pinsUp = .unknownCommand 77 [5]
      ∧ receiveCommand [77, 0, 2, 5] pinsUp = .transactionAbort [77, 0, 2, 5]
      ∧ receiveCommand [2, 0, 1] pinsUp = .transactionAbort [2, 0, 1] := by decide +kernel

/-- Responses as bytes: ACCEPTED, REFUSED with BAD-KEY at K3, EMPTY, and an event with two behind it (R209, R211). -/
theorem test_response_bytes :
    Response.bytes .accepted = [0] ∧ Response.bytes (.refused .badKey (some (.key 3))) = [1, 7, 9] ∧ Response.bytes .empty = [0, 0]
      ∧ Response.bytes (.event 2 (.callIn 1 5 11 true 70)) = [0, 1, 2, 7, 5, 1, 5, 11, 1, 70]
      ∧ Event.bytes (.overflow 258) = [15, 2, 1, 2] := by decide +kernel

/-! ### Small tables and arithmetic -/

/-- Urgencies and the reply class (R16). -/
theorem test_urgencies :
    (List.range 11).map urgencyOfKind = [1, 5, 4, 6, 7, 6, 6, 3, 3, 2, 3]
      ∧ (Message.laneClaim 0 0).reply = true ∧ (Message.talkOpen (openTo 4 false [70])).reply = false := by decide +kernel

/-- Narrowing rounds half up and clamps (R138). -/
theorem test_narrow :
    narrow 128 = 1 ∧ narrow 127 = 0 ∧ narrow (-128) = 0 ∧ narrow (-129) = -1 ∧ narrow 8388607 = 32767 ∧ narrow (-8388608) = -32768
      ∧ clamp24 8388608 = 8388607 ∧ clamp24 (-8388609) = -8388608 := by decide +kernel

/-- Multipliers of the gain table's ends and of unity (R130). -/
theorem test_gain : gain 0 = 0 ∧ gain 1 = 46 ∧ gain 63 = 1638 ∧ gain 103 = 16384 ∧ gain 127 = 65226 := by decide +kernel

/-- A queue in order of urgency, equal urgency in order of arrival (R16). -/
theorem test_insert_order :
    ((insertMsg (.talkMove 0 1) (insertMsg (.tally 70 true) (insertMsg (.talkClose 0 1) (insertMsg (.talkMove 1 2) [])))).map
      OutMsg.msg) = [.talkClose 0 1, .talkMove 1 2, .talkMove 0 1, .tally 70 true] := by decide +kernel

/-- Malformed fields, each by its own fault (R208). -/
theorem test_malformed :
    malformed 16 (env 4 2 36) (.talkOpen (openTo 4 false [70])) = false
      ∧ malformed 16 (env 4 2 36) (.talkOpen (openTo 0 false [70])) = true
      ∧ malformed 16 (env 4 2 36) (.talkOpen (openTo 4 false [63])) = true
      ∧ malformed 16 (env 4 2 28) (.talkOpen (openTo 4 false [])) = true
      ∧ malformed 2 (env 4 2 36) (.talkOpen (openTo 4 false [70])) = true
      ∧ malformed 16 (env 3 2 36) (.talkOpen (openTo 4 false [70])) = true
      ∧ malformed 16 { env 4 2 36 with sender := 63 } (.talkOpen (openTo 4 false [70])) = true := by decide +kernel

/-! ### A station 12 with a few keys and feeds -/

/-- An EARPIECE home feed F0 of destination 70, a SPEAKER feed F1 of 71 that answers ALL-CALL, a RETURN feed F5 of 72 with a lead. -/
def feedsT : List FeedCfg :=
  let dims := [6, 12, 24, 30, 110, 255]
  [⟨1, 1, [70], true, false, 2, 4, dims, 0, 103, 103, 79, 8, 0, 20, 3, 5, 0⟩,
    ⟨2, 1, [71], false, true, 1, 3, dims, 15, 103, 103, 79, 0, 1, 20, 3, 5, 0⟩,
    FeedCfg.absent, FeedCfg.absent, FeedCfg.absent,
    ⟨3, 1, [72], false, false, 1, 6, dims, 1, 103, 103, 79, 8, 0, 20, 3, 5, 400⟩]

/-- K0 PIN-EDGE MOMENTARY TALK, K1–K3 PORT TALK in the three modes, K4 and K6 PORT REPLY of F0 and F1, K5 PORT CALL. -/
def keysT : List KeyCfg :=
  [⟨0, 0, 1, 0, 3, 1, [70], false, 0, 0⟩, ⟨2, 0, 1, 0, 3, 1, [70], true, 0, 0⟩, ⟨2, 1, 1, 1, 5, 2, [71, 255], false, 0, 0⟩,
    ⟨2, 2, 1, 1, 7, 1, [70], false, 0, 0⟩, ⟨2, 1, 3, 0, 2, 0, [], false, 0, 0⟩, ⟨2, 0, 2, 0, 0, 1, [70], false, 1, 0⟩,
    ⟨2, 0, 3, 0, 2, 0, [], false, 0, 1⟩]

/-- The configuration of the tests. -/
def cfgT : Configuration where
  station := ⟨1000, 100, 1, 3, 0, 0⟩
  sources := List.replicate 4 ⟨1, 0, 50⟩
  openTalk := [⟨1, [70], 4, false⟩, ⟨0, [], 0, false⟩]
  keys := keysT
  feeds := feedsT
  memos := List.replicate 4 ⟨16, true⟩

/-- Station 12 under FINE in a line state, with peer 5 PRESENT. -/
def at' (ls : LineState) : State :=
  let s := State.resetWith 12 1
  let s := { s with li := { s.li with lineState := ls, joinStamp := some 7 }, cp := { s.cp with config := some cfgT } }
  (s.modPeer 5 fun _ => ⟨true, 3, some 9, true, 0⟩).modPeer 12 fun _ => ⟨true, 0, some 7, true, 0⟩

/-- Station 12, ACTIVE. -/
def act : State := at' .active

/-- Station 12, OFFLINE, without a configuration. -/
def off : State := State.resetWith 12 1

/-- The state after a command. -/
def run (c : Instr) (s : State) : State :=
  match exec c s with
  | .next t => t
  | _ => s

/-- `n` messages wait. -/
def filled (s : State) (n : Nat) : State :=
  s.modLi fun li => { li with queue := List.replicate n ⟨.talkClose 0 9, false, none⟩ }

/-- One message, locked, is being driven. -/
def sending (s : State) (m : Message) : State :=
  s.modLi fun li => { li with queue := [⟨m, true, none⟩], driving := some .message }

/-- A path record of S0 in a state, with serial 9 on lane 2. -/
def pathT (st : PathState) : Path := ⟨st, ⟨0, 3, true, [70]⟩, some 9, some 2, [], [0], none, false, false⟩

/-- S0 has lane 2. -/
def mined (s : State) : State := (s.setLane 2 (.mine 0)).modSource 0 fun _ => ⟨true, .mine 2, false⟩

/-- `n` outstanding request entries. -/
def outs (s : State) (n age : Nat) : State :=
  s.modTru fun t => { t with outstanding := List.replicate n ⟨13, 200, 3, [70], age, false, [], [0]⟩ }

/-- An entry of talker 5 and its S0 with tag 3, of a level. -/
def entryT (level : Nat) (chain : List Nat) : Entry := ⟨5, 0, [⟨3, level, 70, false⟩], level, 2, 0, 0, chain, none, none⟩

/-- An entry of a talker's S0 with one tag. -/
def ent (talker level : Nat) : Entry := ⟨talker, 0, [⟨3, level, 70, false⟩], level, 2, talker, 0, [], none, none⟩

/-- A key's state. -/
def keyed (s : State) (k : Nat) (st : KeyState) : State := s.modKey k fun _ => ⟨.down, 0, st, false, 0, none⟩

/-- A due step waits. -/
def owing (s : State) (d : Due) : State := { s with owed := [d] }

/-- Every due step is taken apart. -/
def allApart : List DueKind :=
  [.debounce, .presence, .peer, .lane, .claim, .retire, .refresh, .defer, .onAir, .callRepeat, .callExpiry, .cueTone, .cueZero,
    .tonePhase, .hang, .leaving, .fieldLoss, .runCount]

/-- The bytes of a key that is not in use (R212). -/
def noKey : List Nat := List.replicate 13 0

/-- The bytes of a feed that is not in use (R212). -/
def noFeed : List Nat := List.replicate 31 0

/-- A block of 392 bytes at the ends of its ranges, with a home feed byte: F0 an EARPIECE feed, one CALL key, no home feed when the byte
is 4 (R202, R212). -/
def blockT (home : Nat) : List Nat :=
  [3, 232, 3, 232, 1, 2, 8, home] ++ [0, 7, 0, 50] ++ [1, 0, 7, 208] ++ [1, 7, 0, 50] ++ [1, 7, 0, 50]
    ++ [4, 1, 62, 64, 255, 7, 1] ++ [0, 0, 0, 0, 0, 0, 0]
    ++ [2, 2, 2, 0, 0, 4, 1, 62, 64, 255, 0, 1, 0] ++ List.flatten (List.replicate 11 noKey)
    ++ [1, 2, 64, 254, 0, 0, 0, 0, 0, 0, if home = 0 then 1 else 0, 1, 1, 7, 0, 1, 2, 3, 4, 255, 15, 127, 127, 127, 64, 2, 127, 7, 7, 0, 0]
    ++ List.flatten (List.replicate 5 noFeed)
    ++ [0, 16, 0] ++ [0, 16, 1] ++ [0, 16, 0] ++ [15, 208, 1]

/-! ### Witnesses: the frame of a step, start and stop -/

/-- Witness of StepRunsFrontCommand: both queues. -/
theorem witness_StepRunsFrontCommand :
    { off with pending := [.stop, .markSent] }.pending = .stop :: [.markSent] ∧ off.pending = [] ∧ (off.li.micros = 0) := by
  decide +kernel

/-- Witness of CommandsCompleteAndKeepQueue: STOP in OFFLINE answers a next state with its queue. -/
theorem witness_CommandsCompleteAndKeepQueue :
    exec .stop { off with pending := [.markSent] } = .next (run .stop { off with pending := [.markSent] }) ∧
      (run .stop { off with pending := [.markSent] }).pending = [.markSent] := ⟨rfl, by decide +kernel⟩

/-- Witness of StartCommand, accepted: blocks at the ends of the ranges, the home feed F0 or NONE, with either end of the station numbers. -/
theorem witness_StartCommand :
    (off.li.lineState = .offline ∧ (blockT 0).length = 392 ∧ (blockT 4).length = 392 ∧ pinsUp.length = 12)
      ∧ configurationInRange 1 1 (configurationOf (blockT 0)) ∧ configurationInRange 62 2 (configurationOf (blockT 4)) := by
  unfold configurationInRange stationInRange sourceInRange openTalkInRange keyInRange feedInRange homeRight memosInRange listOk addressable
  beta_reduce
  refine ⟨?_, ⟨?_, ?_, ?_, ?_, ?_, ?_, ?_, ?_, ?_⟩, ?_, ?_, ?_, ?_, ?_, ?_, ?_, ?_, ?_⟩ <;> decide +kernel

/-- START at station 12: LISTENING with its first holdoff at 2 × (1024 + 48) µs (R4). -/
theorem test_start :
    (run (.start (blockT 4) pinsUp) off).cp.response = some .accepted ∧ (run (.start (blockT 4) pinsUp) off).li.lineState = .listening
      ∧ (run (.start (blockT 4) pinsUp) off).li.holdoff = some 2144 := by decide +kernel

/-- Witness of StartCommand, refused: a wrong length; LEAVING; another line state; a first check that fails, and one behind passing checks. -/
theorem witness_StartCommand_refused :
    ([] : List Nat).length ≠ 392 ∧ (at' .leaving).li.lineState = .leaving
      ∧ act.li.lineState ≠ .leaving ∧ act.li.lineState ≠ .offline
      ∧ (startChecks 0 1 (configurationOf (blockT 0))).head?.any Check.fails = true
      ∧ (startChecks 12 3 (configurationOf (blockT 0)) =
          (startChecks 12 3 (configurationOf (blockT 0))).take 1 ++
            ⟨true, .badStrap, .straps⟩ :: (startChecks 12 3 (configurationOf (blockT 0))).drop 2)
      ∧ (∀ x ∈ (startChecks 12 3 (configurationOf (blockT 0))).take 1, x.fails = false) := by decide +kernel

/-- A first failing check by hand: a tap limit of 99, then a memo total of 4097 blocks (R192, R212). -/
theorem test_start_refused :
    (run (.start (((blockT 0).set 2 0).set 3 99) pinsUp) off).cp.response = some (.refused .badRange (some .station))
      ∧ (run (.start ((blockT 0).set 390 209) pinsUp) off).cp.response = some (.refused .memoSize (some (.memo 3))) := by
  decide +kernel

/-- Witness of StopInActive: a station with an OPEN path, two places of its queue TALK-CLOSEs; one with a locked message, one with a close
pending, and one with nothing to close. -/
theorem witness_StopInActive :
    (∃ o ∈ (sending act (.tally 70 true)).li.queue, o.locked = true)
      ∧ (act.setPath 13 (some { pathT .closing with closePending := true })).path 13 = some { pathT .closing with closePending := true }
      ∧ (act.li.queue = [] ∧ (∀ g, g < 14 → act.path g = none))
      ∧ act.li.lineState = .active ∧ Sizes act ∧ Sizes ((filled act 2).setPath 13 (some (pathT .opened)))
      ∧ ((filled act 2).li.queue.filter fun o => isClose o.msg || o.locked).length ≤ 2
      ∧ ((filled act 2).setPath 13 (some (pathT .opened))).path 13 = some (pathT .opened) := by
  unfold Sizes; decide +kernel

theorem test_stop :
    (run .stop act).li.lineState = .offline ∧ (run .stop act).cp.config = none
      ∧ (run .stop (act.setPath 1 (some (pathT .opened)))).li.lineState = .leaving
      ∧ (run .stop (sending act (.tally 70 true))).li.lineState = .leaving
      ∧ (run .stop (act.setPath 1 (some (pathT .opened)))).li.queue.map OutMsg.msg = [.talkClose 0 1] := by decide +kernel

/-- Witness of StopElsewhere. -/
theorem witness_StopElsewhere :
    (at' .listening).li.lineState = .listening ∧ (at' .mismatch).li.lineState = .mismatch
      ∧ (at' .silenced).li.lineState = .silenced ∧ off.li.lineState = .offline ∧ (at' .leaving).li.lineState = .leaving := by
  decide +kernel

/-! ### Witnesses: the control port -/

/-- Witness of PortRefusalsChangeNothing: each argument at the first value out of its range, each in the state of its clause. -/
theorem witness_PortRefusalsChangeNothing :
    (at' .leaving).li.lineState = .leaving ∧ off.li.lineState = .offline
      ∧ ((at' .listening).li.lineState ≠ .active ∧ (at' .listening).li.lineState ≠ .leaving)
      ∧ (act.li.lineState ≠ .offline ∧ act.li.lineState ≠ .leaving)
      ∧ (run (.keySetDown 12 1) act).cp.response = some (.refused .arg none)
      ∧ (run (.keySetDown 1 2) act).cp.response = some (.refused .arg none)
      ∧ (run (.keySetUp 0) act).cp.response = some (.refused .arg none)
      ∧ (run (.callAck 6 5 0) act).cp.response = some (.refused .arg none)
      ∧ (run (.callAck 5 63 11) act).cp.response = some (.refused .arg none)
      ∧ (∀ r ∈ (act.feed 5).calls, r.caller ≠ 5 ∨ r.key ≠ 0)
      ∧ (run (.tallySetOn 63 1) act).cp.response = some (.refused .arg none)
      ∧ (run (.tallySetOff 256) act).cp.response = some (.refused .arg none)
      ∧ (run (.tallySetOn 64 2) act).cp.response = some (.refused .arg none)
      ∧ (run (.cueStart 64 100 0) act).cp.response = some (.refused .arg none)
      ∧ (run (.cueStart 64 99 2) act).cp.response = some (.refused .arg none)
      ∧ (run (.cueStop 0) act).cp.response = some (.refused .arg none)
      ∧ (run (.memoDiscard 5 5 0) act).cp.response = some (.refused .arg none) := by decide +kernel

/-- Lane 2 in a state, every other lane HELD, S0 in a phase that fits it, and S1 WAITING. -/
def ending (ph : Phase) (r : Lane) : State :=
  ({ act with plt := { act.plt with lanes := (List.replicate 16 (Lane.held 5 0 0 1 true)).set 2 r } }.modSource 0
    fun _ => ⟨true, ph, false⟩).modSource 1 fun _ => ⟨true, .waiting, false⟩

/-- The states of `ending`: S0 PENDING, CLAIMING and MINE on lane 2. -/
def endings : List State := [ending (.pending 2) .free, ending (.claiming 2) (.claiming 0 1), ending (.mine 2) (.mine 0)]

/-- What `State.needEnds` asks of a state, for its end of need of S`n` to hand lane 2 to S1. -/
def handsLane (n : Nat) (s : State) : Prop :=
  Sizes s ∧ (s.source n).need = true ∧ givenUp (s.source n).phase = some 2 ∧ (s.source 1).phase = .waiting
    ∧ (∀ l, l < s.plt.lanes.length → s.lane l = .free → l = 2 ∧ (s.source n).phase = .pending 2)
    ∧ ∀ j, j < 5 → j ≠ n → (s.source j).phase ≠ .pending 2

/-- Every lane is HELD. -/
def busyLanes (s : State) : State := { s with plt := { s.plt with lanes := List.replicate 16 (.held 5 0 0 1 true) } }

/-- Where every lane is HELD, no source can pick one. -/
theorem not_pickable_of_busy (s : State) (n l : Nat) : ¬(busyLanes s).pickable n l := by
  rintro ⟨h, f, -⟩
  have hl : l < 16 := by simpa [busyLanes] using h
  have held : ∀ k, k < 16 → (List.replicate 16 (Lane.held 5 0 0 1 true)).getD k .free ≠ .free := by decide +kernel
  exact held l hl f

/-- Witness of KeyPressOpens: a TALK key, a REPLY key with a reply station, and S0 with a lane: 5 requests and 11 messages, 6 requests,
and 12 messages. -/
theorem witness_KeyPressOpens :
    (act.li.lineState = .active ∧ Sizes act ∧ (act.keyCfg 1).kind = 2 ∧ (act.keyCfg 1).mode ≤ 2 ∧ (act.keyCfg 1).source ≤ 1
        ∧ (act.keyCfg 1).fn = 1 ∧ [70] = (act.keyCfg 1).dests ∧ (act.key 1).stable = .up ∧ (act.key 1).logical = .idle
        ∧ act.path 1 = none ∧ act.mineLane 0 = none)
      ∧ ((act.keyCfg 4).kind = 2 ∧ (act.keyCfg 4).fn = 3
        ∧ ((act.modFeed 0 fun f => { f with reply := some 5 }).feed (act.keyCfg 4).replyFeed).reply = some 5)
      ∧ ((mined act).mineLane 0 = some 2 ∧ Sizes (mined act))
      ∧ ((outs (mined act) 5 0).tru.outstanding.length + (outs (mined act) 5 0).issuedCount < 6
        ∧ (filled (mined act) 11).li.queue.length < 12)
      ∧ 6 ≤ (outs (mined act) 6 0).tru.outstanding.length ∧ 12 ≤ (filled (mined act) 12).li.queue.length := by
  unfold Sizes; decide +kernel

/-- Witness of KeyPressOpens' pick and successor: no need yet, with lane 0 FREE, with lane 0 picked by S1, and with no lane FREE
(`not_pickable_of_busy`); a need that stands; and a record that is CLOSING. -/
theorem witness_KeyPressOpens_picks :
    ((act.source 0).need = false ∧ (act.source 0).phase = .idle ∧ act.pickable 0 0 ∧ act.li.queue.length < 16)
      ∧ (let s := act.modSource 1 fun _ => ⟨true, .pending 0, false⟩
        ¬s.pickable 0 0 ∧ s.pickable 0 1)
      ∧ (Sizes (busyLanes act) ∧ (busyLanes act).path 1 = none ∧ ((busyLanes act).source 0).phase = .idle)
      ∧ ((mined act).source 0).need = true
      ∧ (let s := act.setPath 1 (some (pathT .closing))
        Sizes s ∧ s.path 1 = some (pathT .closing) ∧ (s.key 1).stable = .up ∧ (s.key 1).logical = .idle) := by
  unfold State.pickable Sizes
  and_intros <;> decide +kernel

/-- A press of K1 with lane 2: its TALK-OPEN stands in the queue with serial 0, the record is ISSUED (R60, R61). -/
theorem test_key_set_down :
    (run (.keySetDown 1 1) (mined act)).li.queue.map OutMsg.msg = [.talkOpen ⟨0, 1, 0, 3, true, false, 2, [70]⟩]
      ∧ ((run (.keySetDown 1 1) (mined act)).path 1).map Path.state = some .issued
      ∧ (run (.keySetDown 1 1) (mined act)).tru.serial = 1 := by decide +kernel

/-- Without a lane the record is PREPARING and the source picks lane 0 with a LANE-CLAIM, or is WAITING with LANE-WAIT; on a tag that is CLOSING
the open is the successor (R31, R32, R36, R60). -/
theorem test_key_set_down_claims :
    (run (.keySetDown 2 1) act).li.queue.map OutMsg.msg = [.laneClaim 0 1] ∧ ((run (.keySetDown 2 1) act).key 2).latch = true
      ∧ (run (.keySetDown 2 1) (busyLanes act)).cp.events = [.laneWait 1]
      ∧ ((run (.keySetDown 1 1) (act.setPath 1 (some (pathT .closing)))).path 1).map Path.successor = some (some ⟨0, 3, true, [70]⟩) := by
  decide +kernel

/-- A re-announce of K1's OPEN path is locked in a slot. -/
def reannouncing : State :=
  ((sending act (.talkOpen ⟨0, 1, 9, 3, true, true, 2, [70]⟩)).setPath 1 (some (pathT .opened))).modKey 1
    fun _ => ⟨.down, 0, .opened, false, 0, none⟩

/-- A TALK key that is not idle, UP or DOWN, with a latch flag and a press length. -/
def standing (k : Nat) (level : KeyLevel) (st : KeyState) (latch : Bool) (length : Nat) : State :=
  act.modKey k fun _ => ⟨level, 0, st, latch, length, none⟩

/-- Witness of KeyReleaseCloses: K1 down with a record in each state, the queue at 15 and 16 messages and a locked re-announce; LATCHING K2
and AUTO K3 pressed again; AUTO K3 at its tap limit and one cycle short of it, and released when LATCHED. -/
theorem witness_KeyReleaseCloses :
    (reannouncing.lockedMsg (isReannounceOf 1) = true ∧ Sizes reannouncing ∧ reannouncing.path 1 = some (pathT .opened))
      ∧ ((act.keyCfg 2).mode = 1 ∧ (act.keyCfg 2).fn = 1 ∧ (act.keyCfg 2).kind = 2 ∧ ((standing 2 .up .latched true 0).key 2).stable = .up
        ∧ ((standing 2 .up .latched true 0).key 2).logical = .latched ∧ Sizes (standing 2 .up .opening true 0))
      ∧ (((standing 3 .up .latched true 40).key 3).latch = true ∧ ((standing 3 .down .latched true 40).key 3).stable = .down)
      ∧ (act.cfg.station.tapLimit ≤ ((standing 3 .down .opened false 100).key 3).pressLength)
      ∧
    ((keyed act 1 .opening).li.lineState = .active ∧ Sizes (keyed act 1 .opening) ∧ (act.keyCfg 1).kind = 2 ∧ (act.keyCfg 1).fn = 1
        ∧ (act.keyCfg 1).mode = 0 ∧ ((keyed act 1 .opening).key 1).stable = .down ∧ ((keyed act 1 .opening).key 1).logical = .opening)
      ∧ (act.setPath 1 (some (pathT .issued))).lockedMsg (isOpenOf 1) = false
      ∧ (filled act 15).li.queue.length < 16
      ∧ 16 ≤ ((filled act 16).li.queue.filter fun o => o.locked || !isReannounceOf 1 o.msg).length
      ∧ (act.keyCfg 3).mode = 2 ∧ ((keyed act 3 .opened).key 3).logical = .opened ∧ ((keyed act 3 .opened).key 3).latch = false
      ∧ 99 < act.cfg.station.tapLimit := by
  unfold Sizes
  and_intros <;> decide +kernel

/-- Witness of KeyReleaseCloses' other forms: AUTO K3 tapped while its path is OPENING; a CLOSING record with a successor; the last record of S0
PREPARING, with S0 PENDING, CLAIMING and MINE and S1 WAITING. -/
theorem witness_KeyReleaseCloses_forms :
    act.li.lineState = .active ∧ (let s := standing 3 .down .opening false 40
      Sizes s ∧ (s.key 3).stable = .down ∧ (s.key 3).logical = .opening ∧ (s.key 3).latch = false
        ∧ (s.key 3).pressLength < s.cfg.station.tapLimit ∧ (s.keyCfg 3).mode = 2)
      ∧ (let s := (keyed act 1 .opening).setPath 1 (some { pathT .closing with successor := some ⟨0, 3, true, [70]⟩ })
        Sizes s ∧ (s.key 1).stable = .down ∧ (s.key 1).logical = .opening ∧ (s.path 1).any (fun p => p.state == .closing) = true)
      ∧ ∀ e ∈ endings,
        let s := (keyed e 1 .opening).setPath 1 (some (Path.prepared ⟨0, 3, true, [70]⟩))
        handsLane 0 s ∧ s.li.lineState = .active ∧ (s.key 1).logical = .opening ∧ ∀ g, g < 14 → ∀ q ∈ s.path g, g = 1 := by
  unfold handsLane Sizes
  and_intros <;> decide +kernel

theorem test_key_set_up :
    (run (.keySetUp 1) ((keyed act 1 .opened).setPath 1 (some (pathT .opened)))).li.queue.map OutMsg.msg = [.talkClose 0 1]
      ∧ ((run (.keySetUp 3) (keyed act 3 .opened)).key 3).logical = .latched
      ∧ ((run (.keySetUp 3) (standing 3 .down .opening false 40)).key 3).logical = .opening
      ∧ ((run (.keySetUp 3) (standing 3 .down .opening false 40)).key 3).latch = true
      ∧ (∀ e ∈ endings, ((run (.keySetUp 1) ((keyed e 1 .opening).setPath 1 (some (Path.prepared ⟨0, 3, true, [70]⟩)))).source 1).phase
        = .pending 2) := by decide +kernel

/-- A press closes a LATCHED key, a hold of an AUTO key closes at its release, and a close behind a locked re-announce offers its TALK-CLOSE
when the re-announce is out (R49, R50, R63). -/
theorem test_key_closes :
    ((run (.keySetDown 2 1) (standing 2 .up .latched true 0)).key 2).logical = .idle
      ∧ ((run (.keySetUp 3) (standing 3 .down .opened false 100)).key 3).logical = .idle
      ∧ (run (.keySetUp 1) reannouncing).li.queue.length = 1 ∧ ((run (.keySetUp 1) reannouncing).path 1).map Path.state = some .closing
      ∧ (run .messageSent (run (.keySetUp 1) reannouncing)).li.queue.map OutMsg.msg = [.talkClose 0 1]
      ∧ (run .messageLost (run (.keySetUp 1) reannouncing)).li.queue.map OutMsg.msg = [.talkClose 0 1] := by decide +kernel

/-- Witness of KeyPressesWithoutPath: the three quiet states, an empty reply register, the level a key has, a CALL key with 11 and with
12 messages. -/
theorem witness_KeyPressesWithoutPath :
    (Sizes (at' .silenced) ∧ (act.keyCfg 1).fn ≠ 0 ∧ ((at' .silenced).key 1).stable = .up ∧ (at' .silenced).li.lineState = .silenced)
      ∧ ((act.keyCfg 6).fn = 3 ∧ (act.keyCfg 6).kind = 2 ∧ (act.feed (act.keyCfg 6).replyFeed).reply = none ∧ (act.key 6).logical = .idle)
      ∧ ((keyed act 1 .idle).key 1).stable = .down
      ∧ ((act.keyCfg 5).fn = 2 ∧ (act.keyCfg 5).kind = 2 ∧ (act.key 5).stable = .up ∧ (act.setCall 5 ⟨.idle, 0⟩).callOrigin 5 = some ⟨.idle, 0⟩
        ∧ Sizes (act.setCall 5 ⟨.idle, 0⟩))
      ∧ (filled act 11).li.queue.length < 12 ∧ 12 ≤ (filled act 12).li.queue.length := by
  unfold Sizes; decide +kernel

/-- Witness of OfferingCommands: CALL-ACK at the ends of its ranges; a listed and an unlisted destination with 7 and 8 listed; 11 and 12
messages. -/
theorem witness_OfferingCommands :
    let called := act.modFeed 5 fun f => { f with calls := [⟨62, 11, false, 72, 0⟩] }
    let listing := fun n => act.modTru fun t => { t with tallies := List.replicate n ⟨255, 3⟩ }
    act.li.lineState = .active ∧ (act.feedCfg 5).type ≠ 0 ∧ (∃ r ∈ (called.feed 5).calls, r.caller = 62 ∧ r.key = 11)
      ∧ (filled act 11).li.queue.length < 12 ∧ 12 ≤ (filled act 12).li.queue.length
      ∧ (∃ r ∈ (listing 7).tru.tallies, r.dest = 255) ∧ ¬(∃ r ∈ (listing 7).tru.tallies, r.dest = 64)
      ∧ (listing 7).tru.tallies.length < 8 ∧ 8 ≤ (listing 8).tru.tallies.length := by decide +kernel

theorem test_tally_and_cue_commands :
    (run (.tallySetOn 255 1) act).tru.tallies = [⟨255, 0⟩] ∧ (run (.tallySetOn 255 1) act).li.queue.map OutMsg.msg = [.tally 255 true]
      ∧ (run (.tallySetOff 255) (run (.tallySetOn 255 1) act)).tru.tallies = []
      ∧ (run (.cueStart 72 99 1) act).li.queue.map OutMsg.msg = [.cue 72 99 1]
      ∧ (run (.cueStop 72) act).li.queue.map OutMsg.msg = [.cue 72 0 0] := by decide +kernel

theorem test_call_ack_command :
    let called := act.modFeed 0 fun f => { f with calls := [⟨5, 11, false, 70, 0⟩] }
    (run (.callAck 0 5 11) called).li.queue.map OutMsg.msg = [.callAck 5 0 11] ∧ ((run (.callAck 0 5 11) called).feed 0).calls = [] := by
  decide +kernel

/-- What the statements on feeds and memo assume of a state. -/
def Lawful (s : State) : Prop := Sizes s ∧ EntryLaw s ∧ ArbiterLaw s ∧ MemoLaw s

/-- A feed F5 that holds an entry of talker 62 and its S3 with memo channel 0 of three blocks, draining or not. -/
def chained (draining : Bool) : State :=
  let e : Entry := ⟨62, 3, if draining then [] else [⟨3, 4, 72, true⟩], 4, 2, 0, 0, [0], none, none⟩
  (act.modFeed 5 fun f => { f with stack := [e] }).modChannel 0 fun _ =>
    ⟨if draining then .drain else .play, some ⟨5, 62, 3⟩, List.replicate 3 zeroBlock, 0, false⟩

/-- Witness of MemoDiscardCommand: an entry with a tag and a draining one, with the operands at the ends of their ranges. -/
theorem witness_MemoDiscardCommand :
    (Lawful (chained false) ∧ (((chained false).feed 5).find 62 3).any (fun e => e.chain != [] && !e.draining) = true)
      ∧ Lawful (chained true) ∧ (((chained true).feed 5).find 62 3).any (fun e => e.chain != [] && e.draining) = true := by
  unfold Lawful Sizes EntryLaw feedOrdered ArbiterLaw feedLawful entryInOrder feedFits heldInOrder MemoLaw channelLawful chainLawful
    memosInRange
  and_intros <;> decide +kernel

theorem test_memo_discard :
    (run (.memoDiscard 5 62 3) (chained false)).channel 0 = Channel.rest
      ∧ ((run (.memoDiscard 5 62 3) (chained true)).feed 5).entries = [] ∧ (run (.memoDiscard 5 62 3) (chained true)).cp.events = [] := by
  decide +kernel

/-- Witness of QueryAndEventReading: the last index in range answers a record, and the first beyond it is refused. -/
theorem witness_QueryAndEventReading :
    ([Instr.queryLine 255, .queryPeer 62, .queryLane 15, .querySource 4, .queryKey 11, .queryPath 14, .queryFeed 5, .queryMemo 3,
        .queryField 2, .queryCue 3, .queryClip 5].all fun c =>
        match (run c act).cp.response with
        | some (.record _) => true
        | _ => false) = true
      ∧ ([Instr.queryPeer 0, .queryPeer 63, .queryLane 16, .querySource 5, .queryKey 12, .queryPath 15, .queryFeed 6, .queryMemo 4,
        .queryField 3, .queryCue 4, .queryClip 6].all fun c => (run c act).cp.response == some (.refused .arg none)) = true := by
  decide +kernel

/-- QUERY PEER of station 5 as bytes: PRESENT, age 3, stamp 9, field capable, no programme (R195, R209). -/
theorem test_query_peer :
    (run (.queryPeer 5) act).cp.response.map Response.bytes = some [0, 0, 9, 1, 0, 3, 0, 0, 0, 9, 1, 0] := by decide +kernel

/-- QUERY PATH of a CALL key whose record is absent, as in MISMATCH: one field, all ones; a path record that is absent is followed by the
flag of an outstanding request (R80, R209). -/
theorem test_query_path :
    (run (.queryPath 5) (at' .mismatch)).cp.response.map Response.bytes = some [0, 0, 1, 255]
      ∧ (run (.queryPath 1) (at' .mismatch)).cp.response.map Response.bytes = some [0, 0, 2, 255, 0] := by decide +kernel

theorem test_query_clip :
    (run (.queryClip 1) (act.modMix 1 fun m => { m with clip := true })).cp.response.map Response.bytes = some [0, 0, 1, 1]
      ∧ ((run (.queryClip 1) (act.modMix 1 fun m => { m with clip := true })).mix 1).clip = false := by decide +kernel

/-- Two events wait. -/
def told : State := (act.raise (.laneWait 0)).raise (.laneWait 1)

/-- Witness of QueryAndEventReading's events: none, and two. -/
theorem witness_QueryAndEventReading_events :
    act.cp.events = [] ∧ told.cp.events = .laneWait 0 :: [.laneWait 1] ∧ act.cp.reading = false := by decide +kernel

/-- Reading, breaking off, reading again, and the end of the response (R197). -/
theorem test_event_read :
    (run .eventRead told).cp.response = some (.event 1 (.laneWait 0))
      ∧ (run (.transactionAbort [10, 0]) (run .eventRead told)).cp.events.length = 2
      ∧ (run .eventReadComplete (run .eventRead told)).cp.events = [.laneWait 1]
      ∧ (run (.unknownCommand 77 []) told).cp.response = some (.refused .arg none) := by decide +kernel

/-! ### Witnesses: marks and line states -/

/-- LEAVING with this many cycles counted. -/
def leavingAt (n : Nat) : State := (at' .leaving).modLi fun li => { li with leavingCount := n }

/-- A good mark of this number and organisation. -/
def mark (number org : Nat) : HeardMark := ⟨true, false, number, org⟩

/-- The station drives its own mark from 5000 µs. -/
def marking (ls : LineState) : State := (at' ls).modLi fun li => { li with driving := some (.mark 5000) }

/-- Witness of OpeningReloadsHoldoff: LEAVING one opening short of the last, MISMATCH, SILENCED and OFFLINE. -/
theorem witness_OpeningReloadsHoldoff :
    act.owed = [] ∧ act.li.lineState = .active ∧ (at' .listening).li.lineState = .listening ∧ (leavingAt 18).li.lineState = .leaving
      ∧ (leavingAt 18).li.leavingCount < 19 ∧ off.li.lineState = .offline
      ∧ (∀ ls ∈ [LineState.mismatch, .silenced], (at' ls).li.lineState = ls ∧ (at' ls).li.driving = none ∧ (at' ls).owed = []) := by
  decide +kernel

theorem test_cycle_opening :
    (run (.cycleOpening pinsUp []) (act.modLi fun li => { li with micros := 700 })).li.holdoff = some 1772
      ∧ (run (.cycleOpening pinsUp []) (leavingAt 19)).li.lineState = .offline
      ∧ (run (.cycleOpening pinsUp []) (marking .active)).li.driving = some (.mark 5000)
      ∧ (run (.cycleOpening pinsUp []) (at' .mismatch)).li.holdoff = none ∧ (run (.cycleOpening pinsUp []) (at' .silenced)).mx.cycle = 1 := by
  decide +kernel

/-- Witness of OpeningCounts: ACTIVE, no PIN-LEVEL key, every kind of due step apart; a tally list without repeats; clock 3 one cycle before
its lead, 1 and 5 seconds before it, and zero. -/
theorem witness_OpeningCounts :
    ((([⟨70, 499⟩, ⟨71, 500⟩] : List TallyOrigin).map TallyOrigin.dest).Nodup)
      ∧ (act.feedCfg 5).lead = 400 ∧ (401 - 1 = 400 ∧ 1401 - 1 = 400 + 1000 ∧ 5401 - 1 = 400 + 5000 ∧ 1 - 1 = 0)
      ∧
    act.owed = [] ∧ act.li.lineState = .active ∧ Sizes act ∧ (∀ d : Due, d.kind ∈ allApart)
      ∧ ∀ k, k < 12 → (act.keyCfg k).kind ≠ 1 :=
  ⟨by decide +kernel, by decide +kernel, by decide +kernel, by decide +kernel, by decide +kernel, by unfold Sizes; decide +kernel,
    fun d => by cases d <;> simp [Due.kind, allApart], by decide +kernel⟩

/-- ACTIVE at every edge of an opening: peer 5 silent for 999 cycles, lane 3 HELD by 20 at age 3 and lane 4 at 2, S4's claim of lane 2 with its window
over, K0's pin differing for the eighth time, a request of age 15, a tally of count 499, held, on-air and call records at their last cycle, a tone at
the end of its phase, clocks at 1, a source at the end of its hang, channel A silent for 99 cycles, and the 250th cycle. -/
def edge : State :=
  let s := (act.modPeer 5 fun p => { p with age := 999 }).modLi fun li => { li with activeCycles := 249 }
  let s := ((s.setLane 3 (.held 20 0 0 3 true)).setLane 4 (.held 20 0 0 2 true)).setLane 2 (.claiming 4 2)
  let s := (s.modSource 4 fun _ => ⟨true, .claiming 2, true⟩).modKey 0 fun _ => ⟨.up, 7, .idle, false, 0, none⟩
  let s := (outs s 1 15).modTru fun t => { t with tallies := [⟨255, 499⟩] }
  let s := s.modFeed 0 fun f => { f with
    stack := [ent 21 4], deferred := [{ ent 20 3 with deferAge := 999 }], onAir := [⟨20, 70, 1999⟩], calls := [⟨20, 11, true, 70, 29999⟩] }
  let s := (s.setTone 5 (some ⟨.call, 0, 99, 0⟩)).setClock 3 (some ⟨12, 70, 0, 9, true, 1⟩)
  ((s.setClock 2 (some ⟨20, 70, 0, 9, false, 1⟩)).modVox 0 fun v => { v with voice := true, hang := 49 }).modChan 0 fun c =>
    { c with state := .playing, loss := 99 }

/-- Witness of OpeningCounts' due steps taken inside, with those left apart that a clause names; and the last opening of LEAVING. -/
theorem witness_OpeningCounts_inside :
    (Sizes edge ∧ EntryLaw edge ∧ LaneLaw edge ∧ edge.owed = [] ∧ edge.li.lineState = .active ∧ (edge.li.activeCycles + 1) % 250 = 0
        ∧ edge.li.queue.length < 12 ∧ (∀ k, k < 12 → (edge.keyCfg k).kind ≠ 1))
      ∧ ((edge.peer 5).present = true ∧ 999 ≤ (edge.peer 5).age ∧ 5 ≠ edge.number ∧ edge.lane 3 = .held 20 0 0 3 true
        ∧ edge.lane 4 = .held 20 0 0 2 true ∧ (edge.peer 20).present = false ∧ edge.lane 2 = .claiming 4 2
        ∧ ∀ n, n < 5 → (edge.source n).phase ≠ .claiming 4 ∧ (edge.source n).phase ≠ .mine 4)
      ∧ ((edge.keyCfg 0).fn ≠ 0 ∧ (edge.keyCfg 0).kind = 0 ∧ (List.replicate 12 KeyLevel.down).getD 0 .up ≠ (edge.key 0).stable
        ∧ 7 ≤ (edge.key 0).debounce)
      ∧ (edge.tru.outstanding.length = 1 ∧ edge.tru.outstanding.all (fun o => o.age == 15) = true ∧ edge.tru.tallies = [⟨255, 499⟩])
      ∧ (edge.cfg.station.deferLimit = 1000 ∧ { ent 20 3 with deferAge := 999 } ∈ (edge.feed 0).deferred
        ∧ (edge.feed 0).onAir = [⟨20, 70, 1999⟩] ∧ ⟨20, 11, true, 70, 29999⟩ ∈ (edge.feed 0).calls)
      ∧ (edge.tone 5 = some ⟨.call, 0, 99, 0⟩ ∧ ((Pattern.phases .call).getD 0 (false, 0)).2 ≤ 99 + 1 ∧ usedFeed (edge.feedCfg 5) = true)
      ∧ (edge.clock 3 = some ⟨12, 70, 0, 9, true, 1⟩ ∧ (edge.peer 12).present = true ∧ edge.clock 2 = some ⟨20, 70, 0, 9, false, 1⟩)
      ∧ (let v := (edge.vox 0).evaluated (edge.sourceCfg 0) (toBlock edge.vd.micA)
        (edge.sourceCfg 0).vox ≠ 0 ∧ v.voice = true ∧ (edge.sourceCfg 0).hang ≤ v.hang)
      ∧ ((edge.chan 0).state = .playing ∧ 99 ≤ (edge.chan 0).loss)
      ∧ DueKind.claim ∉ [DueKind.debounce, .fieldLoss] ∧ DueKind.defer ∉ [DueKind.peer] ∧ DueKind.tonePhase ∉ [DueKind.cueTone, .callRepeat]
      ∧ Sizes (leavingAt 19) ∧ (leavingAt 19).li.lineState = .leaving ∧ (leavingAt 19).owed = [] ∧ 19 ≤ (leavingAt 19).li.leavingCount := by
  unfold Sizes EntryLaw feedOrdered LaneLaw
  and_intros <;> decide +kernel

/-- What that opening does inside (R11, R23, R26, R30, R34, R44, R65, R77, R99, R102, R105, R163, R176). -/
theorem test_due_steps_inside :
    let t := run (.cycleOpening (List.replicate 12 .down) [.cueTone]) { edge with tcu := act.tcu }
    (t.peer 5).present = false ∧ t.lane 3 = .free ∧ t.lane 4 = .held 20 0 0 3 true ∧ t.lane 2 = .mine 4 ∧ (t.key 0).stable = .down
      ∧ t.tru.outstanding = [] ∧ t.tru.tallies = [⟨255, 0⟩] ∧ (t.feed 0).deferred = [] ∧ (t.feed 0).onAir = [] ∧ (t.feed 0).calls = []
      ∧ (t.vox 0).voice = false ∧ (t.chan 0).state = .lost ∧ t.owed = [] := by decide +kernel

/-- Witness of MarksHeardAndEntryToActive: the sixth mark of a run in LISTENING, a failing mark, one of number 63, ACTIVE with the marker PRESENT and not. -/
theorem witness_MarksHeardAndEntryToActive :
    (mark 5 1).own = false ∧ (mark 5 1).good = true ∧ (at' .listening).number = 12 ∧ (at' .listening).li.strapOrg = 1
      ∧ (at' .listening).li.runCount < 7 ∧ ((at' .listening).modLi fun li => { li with runCount := 6 }).li.runCount < 7
      ∧ ((HeardMark.mk false false 5 1).good = false) ∧ 62 < (mark 63 1).number ∧ (act.peer 5).present = true
      ∧ (act.peer 62).present = false
      ∧ ((at' .leaving).li.lineState = .leaving ∧ (at' .silenced).li.lineState = .silenced)
      ∧ ((mark 12 1).org = act.li.strapOrg ∧ (mark 12 1).number = act.number ∧ (mark 12 1).own = false) := by decide +kernel

theorem test_mark_received :
    (run (.markReceived (mark 5 1) []) (at' .listening)).li.runCount = 1
      ∧ (run (.markReceived (mark 62 1) []) act).cp.events = [.peerChange 62 true none]
      ∧ (run (.markReceived (mark 5 1) []) (act.modLi fun li => { li with marker := true })).li.marker = false
      ∧ (run (.markReceived (mark 12 2) []) ((at' .leaving).modLi fun li => { li with marker := true })).li.marker = false
      ∧ (run (.markReceived (mark 12 2) []) (at' .leaving)).li.lineState = .leaving := by decide +kernel

/-- LISTENING after this many good marks. -/
def counted (n : Nat) : State := (at' .listening).modLi fun li => { li with runCount := n }

/-- Witness of MarksHeardAndEntryToActive's entry: the eighth mark inside and apart, and the own mark; a publisher's configuration too. -/
theorem witness_MarksHeardAndEntryToActive_entry :
    (counted 7).li.lineState = .listening ∧ (counted 7).li.queue = [] ∧ Sizes (counted 7) ∧ 1 ≤ (counted 7).number
      ∧ (counted 7).number ≤ 62 ∧ 7 ≤ (counted 7).li.runCount ∧ DueKind.runCount ∉ ([] : List DueKind)
      ∧ Due.runCount ∈ (owing (counted 8) .runCount).owed ∧ 8 ≤ (owing (counted 8) .runCount).li.runCount
      ∧ (marking .listening).li.driving = some (.mark 5000) ∧ (marking .listening).li.queue = [] := by
  unfold Sizes; decide +kernel

theorem test_run_count_complete :
    (run .runCountComplete (owing (counted 8) .runCount)).li.lineState = .active
      ∧ (run .runCountComplete (owing (counted 8) .runCount)).li.queue.map OutMsg.msg = [.presence true 0 true 0]
      ∧ (run (.markReceived (mark 5 1) [.runCount]) (counted 7)).owed = [.runCount] := by decide +kernel

/-- The own mark sent in LISTENING: ACTIVE, with join stamp 5000, MARKER, and the next mark at 6000 µs (R5, R8). -/
theorem test_mark_sent :
    (run .markSent (marking .listening)).li.lineState = .active ∧ (run .markSent (marking .listening)).li.joinStamp = some 5000
      ∧ (run .markSent (marking .listening)).li.marker = true ∧ (run .markSent (marking .listening)).li.interval = some 6000 := by
  decide +kernel

/-- Witness of MismatchBeforeSilenced: a mark of the own number with another organisation. -/
theorem witness_MismatchBeforeSilenced :
    act.li.lineState = .active ∧ (at' .listening).li.lineState = .listening ∧ (mark 12 2).good = true ∧ (mark 12 2).number = act.number
      ∧ (mark 12 2).org ≠ act.li.strapOrg := by decide +kernel

theorem test_mismatch :
    (run (.markReceived (mark 12 2) []) act).li.lineState = .mismatch
      ∧ (run (.markReceived (mark 12 2) []) act).cp.events = [.lineState .active .mismatch (some 2)] := by decide +kernel

/-- An envelope with the station's own number. -/
def ownEnv (urgency kind length : Nat) : Envelope := { env urgency kind length with sender := 12 }

/-- A slot with the station's own number. -/
def ownSlot : Slot := { quietSlot with holder := 12 }

/-- Witness of SilencedCauses. -/
theorem witness_SilencedCauses :
    (at' .listening).li.lineState = .listening ∧ act.li.lineState = .active
      ∧ ((mark 12 1).good = true ∧ (mark 12 1).own = false ∧ (mark 12 1).number = act.number ∧ (mark 12 1).org = act.li.strapOrg)
      ∧ ((ownEnv 7 4 7).good = true ∧ (ownEnv 7 4 7).own = false ∧ (ownEnv 7 4 7).sender = act.number)
      ∧ (act.li.joinStamp = some 7 ∧ malformed 16 (ownEnv 1 0 21) (.presence false 8 true 0) = true)
      ∧ (15 < lanesOf act.li.strapOrg ∧ goodSlot true ownSlot = true ∧ ownSlot.holder = act.number)
      ∧ (malformed 16 (ownEnv 1 0 22) (.presence false 8 true 0) = false ∧ act.li.joinStamp ≠ some 8)
      ∧ (marking .active).li.driving ≠ none := by decide +kernel

theorem test_silenced :
    (run (.presenceReceived (ownEnv 1 0 22) false 8 true 0) act).cp.events = [.lineState .active .silenced (some 2)]
      ∧ (run (.talkCloseReceived (ownEnv 7 4 7) 0 1) act).cp.events = [.lineState .active .silenced (some 3)]
      ∧ (run (.cueStopReceived (ownEnv 3 10 16) 70 0) act).cp.events = [.lineState .active .silenced (some 3)]
      ∧ (run (.presenceReceived (ownEnv 1 0 22) false 7 true 0) act).cp.events = [.lineState .active .silenced (some 3)]
      ∧ (run .readbackMismatch (marking .active)).cp.events = [.lineState .active .silenced (some 4)]
      ∧ (run (.markReceived (mark 12 1) []) (at' .listening)).cp.events = [.lineState .listening .silenced (some 1)] := by
  decide +kernel

/-- A holdoff and a mark interval that expire at 900 and 950 µs. -/
def timed : State := act.modLi fun li => { li with marker := true, holdoff := some 900, interval := some 950 }

/-- Witness of MarkDutyAndReadback: running and stopped timers, an own mark, and each item driven in LEAVING. -/
theorem witness_MarkDutyAndReadback :
    (timed.marks = true ∧ timed.li.holdoff = some 900 ∧ timed.li.driving = none ∧ timed.li.marker = true ∧ timed.li.interval = some 950)
      ∧ act.li.holdoff = none ∧ act.li.interval = none ∧ act.drivesMark = false
      ∧ (marking .active).li.driving = some (.mark 5000) ∧ (marking .active).li.lineState ≠ .listening
      ∧ (marking .leaving).li.lineState = .leaving ∧ (marking .leaving).li.driving = some (.mark 5000)
      ∧ (sending (at' .leaving) (.talkClose 0 1)).li.driving = some .message
      ∧ ((at' .leaving).modLi fun li => { li with driving := some (.slot 2 ownSlot) }).li.driving = some (.slot 2 ownSlot) := by
  decide +kernel

theorem test_timers :
    (run .holdoffExpiry timed).li.driving = some (.mark 900) ∧ (run .markIntervalExpiry timed).li.driving = some (.mark 950)
      ∧ (run .markIntervalExpiry timed).li.micros = 950
      ∧ (run .markLost ((marking .active).modLi fun li => { li with marker := true })).li.marker = false := by decide +kernel

/-! ### Witnesses: the station's own messages -/

/-- A queue of a TALK-OPEN behind a TALK-CLOSE. -/
def waiting2 : State := act.modLi fun li => { li with
  queue := [⟨.talkClose 0 1, false, none⟩, ⟨.talkOpen (openTo 4 false [70]), false, none⟩] }

/-- A locked TALK-OPEN with a close waiting, its record ISSUED. -/
def closingOpen : State := (act.modLi fun li => { li with
  queue := [⟨.talkOpen (openTo 4 false [70]), true, some .close⟩], driving := some .message }).setPath 3 (some (pathT .issued))

/-- A locked re-announce whose path is CLOSING, the close waiting for its outcome. -/
def closingReannounce : State := run (.keySetUp 1) reannouncing

/-- LEAVING with this message locked, withdrawn or not, and these behind it. -/
def leavingWith (m : Message) (drop : Option Withdrawal) (rest : List OutMsg) : State :=
  (at' .leaving).modLi fun li => { li with queue := ⟨m, true, drop⟩ :: rest, driving := some .message }

/-- LEAVING was entered while the TALK-OPEN of an ISSUED record was locked. -/
def leavingOpen : State := (leavingWith (.talkOpen (openTo 4 false [70])) (some .leaving) []).setPath 3 (some (pathT .issued))

/-- Witness of MessageSlots' and TalkMessagesSent's closes that wait: in ACTIVE, and in LEAVING with nothing else left and with a TALK-CLOSE left. -/
theorem witness_closing_opens :
    (Sizes closingOpen ∧ closingOpen.li.lineState = .active ∧ closingOpen.li.driving = some .message ∧ closingOpen.li.queue.length ≤ 16
        ∧ closingOpen.path 3 = some (pathT .issued) ∧ closingOpen.path 13 = none
        ∧ closingOpen.li.queue.filter OutMsg.locked = [⟨.talkOpen (openTo 4 false [70]), true, some .close⟩])
      ∧ (Sizes leavingOpen ∧ leavingOpen.li.lineState = .leaving ∧ leavingOpen.path 3 = some (pathT .issued)
        ∧ leavingOpen.li.driving = some .message ∧ leavingOpen.li.queue = [⟨.talkOpen (openTo 4 false [70]), true, some .leaving⟩]
        ∧ (openTo 4 false [70]).reannounce = false ∧ (openTo 4 false [70]).tag = 3)
      ∧ ∃ x ∈ (leavingWith (.talkOpen (openTo 4 false [70])) (some .leaving) [⟨.talkClose 0 1, false, none⟩]).li.queue,
          x.locked = false ∧ isClose x.msg = true := by
  unfold Sizes
  and_intros <;> decide +kernel

/-- Witness of MessageSlots: a head to lock, the four ways to a quiet slot, a lost message, and each kind that is sent; a re-announce with
a close behind it; in LEAVING the last message, one withdrawn, and one with a TALK-CLOSE behind it. -/
theorem witness_MessageSlots :
    (closingReannounce.li.queue.filter OutMsg.locked = [⟨.talkOpen ⟨0, 1, 9, 3, true, true, 2, [70]⟩, true, some .close⟩]
        ∧ (closingReannounce.path 1).any (fun p => p.state == .closing && p.closePending) = true ∧ Sizes closingReannounce
        ∧ closingReannounce.li.queue.length ≤ 16)
      ∧ ((leavingWith (.talkClose 0 1) none []).li.queue.filter OutMsg.locked = [⟨.talkClose 0 1, true, none⟩]
        ∧ (leavingWith (.tally 70 true) (some .leaving) []).li.queue = [⟨.tally 70 true, true, some .leaving⟩]
        ∧ ∃ x ∈ (leavingWith (.tally 70 true) none [⟨.talkClose 0 1, false, none⟩]).li.queue, x.locked = false ∧ isClose x.msg = true)
      ∧
    (act.li.lineState = .active ∧ waiting2.li.queue.length = 2 ∧ waiting2.li.driving = none ∧ waiting2.li.sentThisCycle = false
        ∧ ∀ x ∈ waiting2.li.queue, x.locked = false)
      ∧ act.li.queue = [] ∧ (waiting2.modLi fun li => { li with sentThisCycle := true }).li.sentThisCycle = true
      ∧ (marking .active).li.driving ≠ none ∧ ((at' .listening).active = false ∧ (at' .listening).leaving = false)
      ∧ ((sending act (.tally 70 true)).li.driving = some .message
        ∧ (sending act (.tally 70 true)).li.queue.filter OutMsg.locked = [⟨.tally 70 true, true, none⟩])
      ∧ (closingOpen.li.queue.filter OutMsg.locked = [⟨.talkOpen (openTo 4 false [70]), true, some .close⟩])
      ∧ (act.setCall 5 ⟨.queued, 1⟩).callOrigin 5 = some ⟨.queued, 1⟩ ∧ (act.setCall 5 ⟨.queued, 2⟩).callOrigin 5 = some ⟨.queued, 2⟩ := by
  unfold Sizes; decide +kernel

/-- Message slot 3 begins at bit 650, 26 µs after the mark's start (R203). -/
theorem test_message_slot :
    (run (.messageSlot 3) waiting2).li.queue.map OutMsg.locked = [true, false] ∧ (run (.messageSlot 3) waiting2).li.micros = 26
      ∧ (run .messageLost (run (.messageSlot 3) waiting2)).li.queue = waiting2.li.queue
      ∧ (run .messageLost closingOpen).path 3 = none := by decide +kernel

/-- The end test of LEAVING at the outcome of a slot (R11). -/
theorem test_leaving_ends :
    (run .messageSent (leavingWith (.talkClose 0 1) none [])).li.lineState = .offline
      ∧ (run .messageLost (leavingWith (.talkClose 0 1) none [])).li.lineState = .leaving
      ∧ (run .messageLost (leavingWith (.tally 70 true) (some .leaving) [])).li.lineState = .offline
      ∧ (run .messageSent (leavingWith (.tally 70 true) none [⟨.talkClose 0 1, false, none⟩])).li.lineState = .leaving := by decide +kernel

theorem test_call_sent :
    (run .messageSent (sending (act.setCall 5 ⟨.queued, 2⟩) (.call 5 1 [70]))).callOrigin 5 = some ⟨.queued, 1⟩
      ∧ (run .messageSent (sending (act.setCall 5 ⟨.queued, 1⟩) (.call 5 1 [70]))).callOrigin 5 = some ⟨.sent, 0⟩ := by decide +kernel

/-- Witness of TalkMessagesSent: an ISSUED record of a key's tag and of tag 13, a CLOSING record with and without a successor. -/
theorem witness_TalkMessagesSent :
    let issued := fun g => (sending act (.talkOpen { openTo 4 false [70] with tag := g })).setPath g (some (pathT .issued))
    (Sizes (issued 3) ∧ (issued 3).path 3 = some (pathT .issued) ∧ (issued 13).path 13 = some (pathT .issued)
        ∧ (issued 3).li.driving = some .message ∧ (issued 3).li.queue.length = 1)
      ∧ ((sending act (.talkClose 0 3)).setPath 3 (some { pathT .closing with successor := some ⟨0, 4, false, [70]⟩ })).path 3
        = some { pathT .closing with successor := some ⟨0, 4, false, [70]⟩ }
      ∧ (∀ h, h < 14 → ((sending act (.talkClose 0 3)).setPath 3 (some (pathT .closing))).path h = if h = 3 then some (pathT .closing) else none) := by
  unfold Sizes; decide +kernel

/-- Witness of TalkMessagesSent's end of need: S0's last record CLOSING with S0 PENDING, CLAIMING and MINE, and one beside another record. -/
theorem witness_TalkMessagesSent_needEnds :
    (∀ e ∈ endings,
      let s := (sending e (.talkClose 0 3)).setPath 3 (some (pathT .closing))
      handsLane 0 s ∧ s.li.driving = some .message ∧ s.li.queue.filter OutMsg.locked = [⟨.talkClose 0 3, true, none⟩]
        ∧ s.path 3 = some (pathT .closing) ∧ ∀ h, h < 14 → ∀ q ∈ s.path h, h = 3)
      ∧ (let s := ((sending act (.talkClose 0 3)).setPath 3 (some (pathT .closing))).setPath 13 (some (pathT .opened))
        Sizes s ∧ s.path 3 = some (pathT .closing) ∧ s.path 13 = some (pathT .opened) ∧ (pathT .opened).req.source = 0) := by
  unfold handsLane Sizes
  and_intros <;> decide +kernel

/-- A TALK-OPEN sent for OPENING K3: the key and its record are OPEN, and the request is outstanding (R62). -/
theorem test_talk_open_sent :
    let s := keyed ((sending act (.talkOpen (openTo 4 false [70]))).setPath 3 (some (pathT .issued))) 3 .opening
    ((run .messageSent s).key 3).logical = .opened ∧ ((run .messageSent s).path 3).map Path.state = some .opened
      ∧ (run .messageSent s).tru.outstanding = [⟨3, 9, 0, [70], 0, false, [], [0]⟩]
      ∧ (run .messageSent closingOpen).path 3 = some { pathT .closing with successor := none }
      ∧ (run .messageSent closingOpen).li.queue = [⟨.talkClose 0 3, false, none⟩]
      ∧ (run .messageSent leavingOpen).li.queue = [⟨.talkClose 0 3, false, none⟩] ∧ (run .messageSent leavingOpen).leaving = true
      ∧ (run .messageLost leavingOpen).li.lineState = .offline := by decide +kernel

/-- Witness of ClaimSentAndWindowCloses, sent: lane 2 FREE, HELD by 13 with no block seen, HELD by 12's own number or lower, HELD with a block. -/
theorem witness_ClaimSentAndWindowCloses_sent :
    let s := (sending act (.laneClaim 2 0)).modSource 0 fun _ => ⟨true, .pending 2, false⟩
    (s.li.lineState = .active ∧ Sizes s ∧ 2 < lanesOf s.li.strapOrg ∧ (s.source 0).phase = .pending 2 ∧ s.lane 2 = .free)
      ∧ ((s.setLane 2 (.held 13 0 0 1 false)).lane 2 = .held 13 0 0 1 false ∧ s.number < 13)
      ∧ ((s.setLane 2 (.held 12 0 0 1 false)).lane 2 = .held 12 0 0 1 false ∧ 12 ≤ s.number)
      ∧ ((s.setLane 2 (.held 13 0 0 1 true)).lane 2 = .held 13 0 0 1 true ∧ (s.setLane 2 (.held 13 0 0 1 true)).pickable 0 0)
      ∧ (Sizes (busyLanes s) ∧ (busyLanes s).lane 2 = .held 5 0 0 1 true) := by
  unfold State.pickable Sizes
  and_intros <;> decide +kernel

theorem test_claim_sent :
    let s := (sending act (.laneClaim 2 0)).modSource 0 fun _ => ⟨true, .pending 2, false⟩
    (run .messageSent s).lane 2 = .claiming 0 0
      ∧ ((run .messageSent (s.setLane 2 (.held 11 0 0 1 false))).source 0).phase = .pending 0 := by decide +kernel

/-! ### Witnesses: heard messages -/

/-- Witness of PresencesHeard: an ABSENT sender, an unknown, an equal and another stamp; a new PRESENCE of an ABSENT and of a PRESENT
station; a tally list without repeats, with room in the queue and without. -/
theorem witness_PresencesHeard :
    (malformed 16 (env 1 0 22) (.presence true 9 true 8) = false ∧ (act.peer 5).stamp = some 9
        ∧ (([⟨70, 9⟩, ⟨255, 10⟩] : List TallyOrigin).map TallyOrigin.dest).Nodup
        ∧ (filled act 12).li.queue.length = 12)
      ∧
    (act.li.lineState = .active ∧ Sizes act ∧ (env 1 0 22).good = true ∧ malformed 16 (env 1 0 22) (.presence false 9 true 8) = false
        ∧ (env 1 0 22).sender ≠ act.number)
      ∧ ({ env 1 0 22 with sender := 62 }.good = true ∧ (act.peer 62).present = false
        ∧ malformed 16 { env 1 0 22 with sender := 62 } (.presence true 9 true 8) = false
        ∧ malformed 16 (env 1 0 22) (.presence true 10 true 8) = false)
      ∧ ((act.peer 5).present = true ∧ (act.peer 5).stamp = some 9 ∧ 9 ≠ 10)
      ∧ (act.modPeer 5 fun p => { p with stamp := none }).peer 5 = ⟨true, 3, none, true, 0⟩
      ∧ ((act.setPath 1 (some (pathT .opened))).path 1 = some (pathT .opened) ∧ (pathT .opened).reannouncePending = false)
      ∧ ((at' .listening).li.lineState = .listening ∧ (at' .listening).cia = Cia.rest) := by
  unfold Sizes; decide +kernel

theorem test_presence_received :
    let held := act.setLane 3 (.held 5 0 0 1 true)
    (run (.presenceReceived (env 1 0 22) false 10 true 0) held).lane 3 = .free
      ∧ (run (.presenceReceived (env 1 0 22) false 9 true 0) held).lane 3 = .held 5 0 0 1 true
      ∧ (run (.presenceReceived (env 1 0 22) false 10 true 0) held).cp.events = [.peerChange 5 false none, .peerChange 5 true (some 10)]
      ∧ (run (.presenceReceived (env 1 0 22) true 9 true 8) (act.modTru fun t => { t with tallies := [⟨255, 10⟩] })).li.queue.map OutMsg.msg
        = [.tally 255 true]
      ∧ (run (.presenceReceived { env 1 0 22 with sender := 62 } true 9 true 8) (at' .listening)).peer 62 = ⟨true, 0, some 9, true, 8⟩
      ∧ (run (.presenceReceived (env 1 0 22) true 10 true 0) held).lane 3 = .free
      ∧ (run (.presenceReceived { env 1 0 22 with sender := 62 } true 9 true 8) (act.setPath 1 (some (pathT .opened)))).li.queue.map
          OutMsg.msg = [.talkOpen ⟨0, 1, 9, 3, true, true, 2, [70]⟩] := by decide +kernel

/-- S0 has picked lane 2, with these messages in the queue. -/
def picked (q : List OutMsg) : State := (act.modSource 0 fun _ => ⟨true, .pending 2, false⟩).modLi fun li => { li with queue := q }

/-- S0's claim of lane 2, locked or not, with a withdrawal that waits or none. -/
def claimOut (locked : Bool) (drop : Option Withdrawal) : OutMsg := ⟨.laneClaim 2 0, locked, drop⟩

/-- Witness of LaneClaimHeard's and LaneSlotHeard's picked lane: S0's claim of lane 2 queued, locked, not admitted, and queued behind an abandoned one
that is locked; and a sender that was ABSENT. -/
theorem witness_picked :
    (∀ q ∈ [[claimOut false none], [claimOut true none], [], [claimOut true (some .needEnd), claimOut false none]],
      Sizes (picked q) ∧ (picked q).li.lineState = .active ∧ (picked q).lane 2 = .free ∧ ((picked q).source 0).phase = .pending 2
        ∧ (∀ k, k < 5 → k ≠ 0 → ((picked q).source k).phase ≠ .pending 2)
        ∧ ∀ i, i < 6 → ((picked q).feed i).entries = [])
      ∧ ((claimOut false none).isClaim 0 2 ∧ (claimOut true none).isClaim 0 2 ∧ ¬(claimOut true (some .needEnd)).isClaim 0 2)
      ∧ (act.peer 62).present = false ∧ malformed 16 { env 5 1 8 with sender := 62 } (.laneClaim 2 4) = false
      ∧ malformed 16 (env 5 1 8) (.laneClaim 2 4) = false ∧ goodSlot true quietSlot = true ∧ quietSlot.quiet = true
      ∧ (let s := (act.setLane 2 (.claiming 0 1)).modSource 0 fun _ => ⟨true, .claiming 2, false⟩
        Sizes s ∧ s.lane 2 = .claiming 0 1 ∧ (s.source 0).phase = .claiming 2) := by
  unfold OutMsg.isClaim Sizes
  and_intros <;> decide +kernel

/-- Witness of LaneClaimHeard: lane 15, each kind of record, an own CLAIMING lane against a lower number, the own number, and lane 16. -/
theorem witness_LaneClaimHeard :
    (act.li.lineState = .active ∧ Sizes act ∧ (env 5 1 8).good = true ∧ malformed 16 (env 5 1 8) (.laneClaim 15 4) = false
        ∧ (env 5 1 8).sender ≠ act.number ∧ (env 5 1 8).sender < act.number ∧ (act.peer 5).present = true)
      ∧ (let s := (act.setLane 2 (.claiming 0 1)).modSource 0 fun _ => ⟨true, .claiming 2, false⟩
        s.lane 2 = .claiming 0 1 ∧ (s.source 0).phase = .claiming 2 ∧ s.pickable 0 0
          ∧ (let b := (busyLanes s).setLane 2 (.claiming 0 1)
            b.lane 2 = .claiming 0 1 ∧ Sizes b ∧ ∀ l, l < 16 → b.lane l ≠ .free))
      ∧ ({ ownEnv 5 1 8 with own := true }.sender = act.number ∧ { ownEnv 5 1 8 with own := true }.own = true)
      ∧ lanesOf act.li.strapOrg ≤ 16 := by
  unfold State.pickable Sizes
  and_intros <;> decide +kernel

theorem test_lane_claim_received :
    (run (.laneClaimReceived (env 5 1 8) 4 1) act).lane 4 = .held 5 1 0 0 false
      ∧ (run (.laneClaimReceived (env 5 1 8) 4 1) (act.setLane 4 (.held 4 0 0 2 false))).lane 4 = .held 4 0 0 2 false := by
  decide +kernel

/-- S0's queued claim of lane 2 is withdrawn and it picks lane 0, beside an abandoned claim that is locked too; a locked claim waits (R32, R38). -/
theorem test_lane_claim_withdrawn :
    let heard := fun q => run (.laneClaimReceived (env 5 1 8) 2 1) (picked q)
    (heard [claimOut false none]).li.queue.map OutMsg.msg = [.laneClaim 0 0]
      ∧ (heard [claimOut true (some .needEnd), claimOut false none]).li.queue
        = [claimOut true (some .needEnd), ⟨.laneClaim 0 0, false, none⟩]
      ∧ (heard [claimOut true none]).li.queue = [claimOut true (some .repick)]
      ∧ ((heard [claimOut true none]).source 0).phase = .pending 2 := by decide +kernel

/-- The MIX feed F1 with six admitted, this entry of talker 9 among them, and seven held. -/
def fullMix (e : Entry) : State :=
  act.modFeed 1 fun f => { f with
    admitted := List.replicate 5 { entryT 2 [] with talker := 7 } ++ [{ e with talker := 9 }]
    deferred := List.replicate 7 { entryT 2 [] with talker := 8 } }

/-- Witness of TalkOpenHeard: F0 (CUT-IN, floor 2, home) at its floor and below it, over a lower and under a higher level with seven
held; F1 (MIX) at level 6 with five admitted, and with six, one of them of level 7 and none. -/
theorem witness_TalkOpenHeard :
    let m := openTo 2 false [12]
    (act.li.lineState = .active ∧ Sizes act ∧ (env 4 2 36).good = true ∧ (env 4 2 36).sender ≠ act.number
        ∧ malformed 16 (env 4 2 36) (.talkOpen m) = false ∧ act.matched 0 m.dests = some 12
        ∧ (∀ j, j < 6 → j ≠ 0 → act.matched j m.dests = none) ∧ (act.feed 0).find 5 0 = none
        ∧ (filled act 14).li.queue.length < 15 ∧ (act.modFeed 0 fun f => { f with arrival := 65534 }).feed 0 = { Feed.rest with arrival := 65534 })
      ∧ (1 < act.floor 0 ∧ ¬2 < act.floor 0 ∧ mixingFeed (act.feedCfg 0) = false)
      ∧ ((act.modFeed 0 fun f => { f with stack := [{ entryT 1 [] with talker := 6 }] }).feed 0).currentLevel < m.level
      ∧ (let s := act.modFeed 0 fun f => { f with stack := [{ entryT 2 [] with talker := 6 }], deferred := List.replicate 7 { entryT 2 [] with talker := 7 } }
        m.level ≤ (s.feed 0).currentLevel ∧ (s.feed 0).deferred.length < 8 ∧ (s.feed 0).find 5 0 = none ∧ m.memo = false)
      ∧ (mixingFeed (act.feedCfg 1) = true ∧ act.matched 1 [71] = some 71 ∧ (∀ j, j < 6 → j ≠ 1 → act.matched j [71] = none)
        ∧ let s := act.modFeed 1 fun f => { f with admitted := List.replicate 5 { entryT 2 [] with talker := 7 } }
          (s.feed 1).exclusive = false ∧ (s.feed 1).admitted.length < 6 ∧ (6 : Nat) < 7)
      ∧ (∀ e ∈ [entryT 6 [], entryT 7 []],
        let s := fullMix e
        (s.feed 1).find 5 0 = none ∧ 6 ≤ (s.feed 1).admitted.length ∧ (s.feed 1).deferred.length < 8 ∧ Sizes s)
      ∧ ((fullMix (entryT 6 [])).feed 1).exclusive = false ∧ ((fullMix (entryT 7 [])).feed 1).exclusive = true := by
  unfold Sizes
  and_intros <;> decide +kernel

theorem test_talk_open_received :
    (run (.talkOpenReceived (env 4 2 36) (openTo 1 false [12])) act).li.queue.map OutMsg.msg = [.answer 5 3 9 [⟨0, 12, 2, 4⟩]]
      ∧ (run (.talkOpenReceived (env 4 2 36) (openTo 2 false [12])) act).li.queue.map OutMsg.msg = [.answer 5 3 9 [⟨0, 12, 0, 0⟩]]
      ∧ ((run (.talkOpenReceived (env 4 2 36) (openTo 2 false [12])) act).feed 0).reply = some 5 := by decide +kernel

/-- The entry of talker 5 and its S0 with tags 3 and 2. -/
def two (first second : Nat) : Entry := { ent 5 (max first second) with tags := [⟨3, first, 70, false⟩, ⟨2, second, 70, false⟩] }

/-- The CUT-IN feed F0 with this stack, from bottom to top, and these held entries. -/
def cutIn (stack held : List Entry) : State := act.modFeed 0 fun f => { f with stack := stack, deferred := held, arrival := 65534 }

/-- The MIX feed F1 with these entries admitted and held. -/
def mixes (admitted held : List Entry) : State :=
  act.modFeed 1 fun f => { f with admitted := admitted, deferred := held, arrival := 65534 }

/-- A TALK-OPEN of talker 5 that TalkOpenElsewhere speaks of: heard, in order, and answered by one feed. -/
def asked (s : State) (m : TalkOpen) (i d : Nat) : Prop :=
  s.li.lineState = .active ∧ Lawful s ∧ malformed 16 (env 4 2 36) (.talkOpen m) = false ∧ s.matched i m.dests = some d
    ∧ (∀ j, j < 6 → j ≠ i → s.matched j m.dests = none) ∧ s.li.queue.length < 13

/-- Six admitted entries of F1, this one and five of level 3 that rank above a level of 2. -/
def six (e : Entry) : List Entry := [e, ent 20 3, ent 21 3, ent 22 3, ent 23 3, ent 24 3]

/-- Eight held entries of level 3. -/
def eight : List Entry := [ent 20 3, ent 21 3, ent 22 3, ent 23 3, ent 24 3, ent 25 3, ent 26 3, ent 27 3]

/-- Witness of TalkOpenElsewhere, an entry in a CUT-IN feed: a re-announce, a fifth tag, a level below the floor, its own level; raised as
the top, as a suspended entry over the top and not, and as a held one over the top and not. -/
theorem witness_TalkOpenElsewhere :
    (env 4 2 36).good = true ∧ (env 4 2 36).sender ≠ act.number
      ∧ asked (cutIn [ent 5 4] []) { openTo 4 false [70] with reannounce := true } 0 70
      ∧ asked (cutIn [{ ent 5 4 with tags := [⟨0, 4, 70, false⟩, ⟨1, 4, 70, false⟩, ⟨2, 4, 70, false⟩, ⟨4, 4, 70, false⟩] }] []) (openTo 4 false [70]) 0 70
      ∧ (asked (cutIn [ent 5 4] []) (openTo 1 false [70]) 0 70 ∧ 1 < act.floor 0 ∧ ¬2 < act.floor 0)
      ∧ asked (cutIn [ent 5 4] []) (openTo 4 false [70]) 0 70 ∧ asked (cutIn [ent 5 4] []) (openTo 5 false [70]) 0 70
      ∧ (asked (cutIn [ent 5 3, ent 6 5] []) (openTo 6 false [70]) 0 70 ∧ ((cutIn [ent 5 3, ent 6 5] []).feed 0).currentLevel = 5)
      ∧ asked (cutIn [ent 5 3, ent 6 5] []) (openTo 5 false [70]) 0 70
      ∧ (asked (cutIn [ent 6 5] [ent 5 3]) (openTo 6 false [70]) 0 70 ∧ ((cutIn [ent 6 5] [ent 5 3]).feed 0).find 5 0 = some (ent 5 3))
      ∧ asked (cutIn [ent 6 5] [ent 5 3]) (openTo 5 false [70]) 0 70 := by
  unfold asked
  unfold Lawful Sizes EntryLaw feedOrdered ArbiterLaw feedLawful entryInOrder feedFits heldInOrder MemoLaw channelLawful chainLawful
    memosInRange
  and_intros <;> decide +kernel

/-- Witness of TalkOpenElsewhere, a stacked entry that falls: the top over the one beneath it, with no held entry above its new level and with one;
the top, and a suspended entry, not over the one beneath; and a suspended entry over it. -/
theorem witness_TalkOpenElsewhere_falls :
    (asked (cutIn [ent 6 2, ent 5 5] [ent 7 3]) (openTo 3 false [70]) 0 70 ∧ asked (cutIn [ent 6 2, ent 5 5] [ent 7 4]) (openTo 3 false [70]) 0 70
        ∧ (ent 7 4).tags ≠ [] ∧ ((cutIn [ent 6 2, ent 5 5] [ent 7 4]).feed 0).find 5 0 = some (ent 5 5))
      ∧ asked (cutIn [ent 6 4, ent 5 5] [ent 7 4]) (openTo 3 false [70]) 0 70
      ∧ asked (cutIn [ent 6 4, ent 5 5, ent 7 6] []) (openTo 3 false [70]) 0 70
      ∧ asked (cutIn [ent 6 2, ent 5 5, ent 7 6] []) (openTo 3 false [70]) 0 70 := by
  unfold asked
  unfold Lawful Sizes EntryLaw feedOrdered ArbiterLaw feedLawful entryInOrder feedFits heldInOrder MemoLaw channelLawful chainLawful
    memosInRange
  and_intros <;> decide +kernel

/-- Witness of TalkOpenElsewhere in a MIX feed: an admitted entry raised to level 7, alone and beside another, and lowered from it for a
held one of level 7 that takes its place. -/
theorem witness_TalkOpenElsewhere_mix :
    asked (mixes [ent 5 3] []) (openTo 7 false [71]) 1 71
      ∧ (asked (mixes [ent 5 3, ent 6 7] []) (openTo 7 false [71]) 1 71 ∧ ((mixes [ent 5 3, ent 6 7] []).feed 1).exclusive = true)
      ∧ (asked (mixes (six (ent 5 7)) [ent 6 7]) (openTo 2 false [71]) 1 71
        ∧ ((mixes (six (ent 5 7)) [ent 6 7]).feed 1).admitted.length = 6
        ∧ ∀ x ∈ six (ent 5 7), x.talker ≠ 5 → x.above { ent 5 7 with tags := [⟨3, 2, 71, false⟩], level := 2 } = true) := by
  unfold asked
  unfold Lawful Sizes EntryLaw feedOrdered ArbiterLaw feedLawful entryInOrder feedFits heldInOrder MemoLaw channelLawful chainLawful
    memosInRange
  and_intros <;> decide +kernel

/-- Witness of TalkOpenElsewhere, a new entry: of level 7 in a MIX feed with five and with six admitted; one that finds eight held of its
level and of a lower one; one that wants memo, with the last channel IDLE and with none; own talk; and two answering feeds. -/
theorem witness_TalkOpenElsewhere_new :
    (asked (mixes ((six (ent 6 3)).take 5) []) (openTo 7 false [71]) 1 71 ∧ ((mixes ((six (ent 6 3)).take 5) []).feed 1).find 5 0 = none)
      ∧ (asked (mixes (six (ent 6 2)) []) (openTo 7 false [71]) 1 71
        ∧ ∀ x ∈ six (ent 6 2), x = ent 6 2 ∨ x.above (ent 6 2) = true)
      ∧ (asked (cutIn [ent 6 5] eight) (openTo 3 false [70]) 0 70 ∧ ((cutIn [ent 6 5] eight).feed 0).deferred.getLast? = some (ent 27 3)
        ∧ ((cutIn [ent 6 5] eight).feed 0).deferred.length = 8 ∧ asked (cutIn [ent 6 5] eight) (openTo 4 false [70]) 0 70)
      ∧ (asked (cutIn [ent 6 5] []) (openTo 4 true [70]) 0 70 ∧ ((cutIn [ent 6 5] []).channel 0).state = .idle)
      ∧ (let s := (cutIn [ent 6 5, { ent 7 6 with chain := [0, 1, 2, 3] }] [])
        let s := { s with mu := ⟨List.replicate 4 ⟨.play, some ⟨0, 7, 0⟩, [], 0, false⟩⟩ }
        asked s (openTo 4 true [70]) 0 70 ∧ (∀ c, c < 4 → (s.channel c).state ≠ .idle) ∧ (s.peer 5).present = true)
      ∧ (let m := { openTo 4 false [72] with source := 3 }
        malformed 16 { ownEnv 4 2 36 with own := true } (.talkOpen m) = false ∧ ∀ j, j < 6 → j ≠ 5 → act.matched j m.dests = none)
      ∧ (act.matched 0 [70, 71] = some 70 ∧ act.matched 1 [70, 71] = some 71
        ∧ malformed 16 { env 4 2 44 with sender := 5 } (.talkOpen (openTo 4 false [70, 71])) = false) := by
  unfold asked
  unfold Lawful Sizes EntryLaw feedOrdered ArbiterLaw feedLawful entryInOrder feedFits heldInOrder MemoLaw channelLawful chainLawful
    memosInRange
  and_intros <;> decide +kernel

/-- A raised held entry is pushed, an entry that lowers itself out of level 7 is answered HELD with no notice of its own, and a ninth
held entry of no higher rank is refused with FULL (R88, R95, R101). -/
theorem test_talk_open_elsewhere :
    ((run (.talkOpenReceived (env 4 2 36) (openTo 6 false [70])) (cutIn [ent 6 5] [ent 5 3])).feed 0).stack.map Entry.talker = [6, 5]
      ∧ (run (.talkOpenReceived (env 4 2 36) (openTo 2 false [71])) (mixes (six (ent 5 7)) [ent 6 7])).li.queue.map OutMsg.msg
        = [.feedNotice 1 6 0 0 1, .answer 5 3 9 [⟨1, 71, 1, 0⟩]]
      ∧ (run (.talkOpenReceived (env 4 2 36) (openTo 3 false [70])) (cutIn [ent 6 5] eight)).li.queue.map OutMsg.msg
        = [.answer 5 3 9 [⟨0, 70, 2, 5⟩]] := by decide +kernel

/-- A TALK-CLOSE of talker 5's tag 3 that LevelChanges speaks of. -/
def lowered (s : State) (i : Nat) (e : Entry) : Prop :=
  s.li.lineState = .active ∧ Lawful s ∧ (s.peer 5).present = true ∧ (s.feed i).find 5 0 = some e
    ∧ (∀ j, j < 6 → j ≠ i → (s.feed j).find 5 0 = none) ∧ s.li.queue.length < 15

/-- Witness of LevelChanges: below the floor; a top above the entry beneath it, with no held entry above its new level and with one, and
one not above it; a suspended entry by the same test; a held one; an admitted one below level 7, and one of level 7 with a held one. -/
theorem witness_LevelChanges :
    malformed 16 (env 7 4 7) (.talkClose 0 3) = false ∧ (env 7 4 7).sender ≠ act.number
      ∧ (lowered (cutIn [two 4 1] []) 0 (two 4 1) ∧ 1 < act.floor 0)
      ∧ lowered (cutIn [ent 6 2, two 5 3] [ent 7 3]) 0 (two 5 3) ∧ lowered (cutIn [ent 6 2, two 5 3] [ent 7 4]) 0 (two 5 3)
      ∧ lowered (cutIn [ent 6 4, two 5 4] [ent 7 4]) 0 (two 5 4)
      ∧ lowered (cutIn [ent 7 2, two 4 3, ent 6 5] []) 0 (two 4 3) ∧ lowered (cutIn [ent 7 3, two 4 3, ent 6 5] []) 0 (two 4 3)
      ∧ lowered (cutIn [ent 6 5] [two 4 3]) 0 (two 4 3)
      ∧ lowered (mixes [two 6 3] []) 1 (two 6 3) ∧ lowered (mixes [two 7 6] [ent 6 6]) 1 (two 7 6) := by
  unfold lowered
  unfold Lawful Sizes EntryLaw feedOrdered ArbiterLaw feedLawful entryInOrder feedFits heldInOrder MemoLaw channelLawful chainLawful
    memosInRange
  and_intros <;> decide +kernel

/-- A top that falls below a held entry is covered by it, and one that falls to the entry beneath it is set back (R95). -/
theorem test_level_changes :
    ((run (.talkCloseReceived (env 7 4 7) 0 3) (cutIn [ent 6 2, two 5 3] [ent 7 4])).feed 0).stack.map Entry.talker = [6, 5, 7]
      ∧ ((run (.talkCloseReceived (env 7 4 7) 0 3) (cutIn [ent 6 4, two 5 4] [])).feed 0).deferred.map Entry.talker = [5]
      ∧ (run (.talkCloseReceived (env 7 4 7) 0 3) (cutIn [ent 6 4, two 5 4] [])).li.queue.map OutMsg.msg = [.feedNotice 0 5 0 1 2] := by
  decide +kernel

/-- F0 with an entry whose memo chain is channel 0 with a block. -/
def withChain : State :=
  (act.modFeed 0 fun f => { f with stack := [entryT 4 [0]] }).modChannel 0 fun _ => ⟨.play, some ⟨0, 5, 0⟩, [zeroBlock], 0, false⟩

/-- The same with a chain that holds no block. -/
def withEmptyChain : State := withChain.modChannel 0 fun ch => { ch with blocks := [] }

/-- Witness of TalkMoveAndCloseHeard's empty chain. -/
theorem witness_TalkMoveAndCloseHeard_empty :
    Sizes withEmptyChain ∧ EntryLaw withEmptyChain ∧ MemoLaw withEmptyChain ∧ withEmptyChain.li.lineState = .active
      ∧ (withEmptyChain.feed 0).find 5 0 = some (entryT 4 [0]) ∧ (∀ c ∈ (entryT 4 [0]).chain, (withEmptyChain.channel c).blocks = [])
      ∧ (∀ j, j < 6 → j ≠ 0 → (withEmptyChain.feed j).find 5 0 = none) ∧ mixingFeed (withEmptyChain.feedCfg 0) = false := by
  unfold Sizes EntryLaw feedOrdered MemoLaw channelLawful chainLawful memosInRange
  and_intros <;> decide +kernel

/-- Witness of TalkMoveAndCloseHeard: an entry that loses its only tag, with and without a stored block, and one that keeps a tag of its
level; no entry at all. -/
theorem witness_TalkMoveAndCloseHeard :
    (act.li.lineState = .active ∧ Sizes act ∧ EntryLaw act ∧ malformed 16 (env 6 3 8) (.talkMove 0 15) = false
        ∧ malformed 16 (env 7 4 7) (.talkClose 0 3) = false ∧ (env 7 4 7).sender ≠ act.number ∧ (act.peer 5).present = true)
      ∧ (EntryLaw withChain ∧ Sizes withChain ∧ (withChain.feed 0).find 5 0 = some (entryT 4 [0]) ∧ (withChain.channel 0).blocks ≠ []
        ∧ ∀ x ∈ (entryT 4 [0]).tags, x.tag = 3)
      ∧ EntryLaw (act.modFeed 0 fun f => { f with stack := [entryT 4 []] })
      ∧ (let e : Entry := { entryT 4 [] with tags := [⟨3, 2, 70, false⟩, ⟨2, 4, 70, false⟩] }
        (e.tags.filter fun x => x.tag != 3).foldl (fun m x => max m x.level) 0 = e.level) := by
  unfold Sizes EntryLaw feedOrdered
  and_intros <;> decide +kernel

theorem test_talk_close_received :
    ((run (.talkCloseReceived (env 7 4 7) 0 3) withChain).feed 0).find 5 0 = some { entryT 4 [0] with tags := [] }
      ∧ ((run (.talkCloseReceived (env 7 4 7) 0 3) (act.modFeed 0 fun f => { f with stack := [entryT 4 []] })).feed 0).stack = []
      ∧ ((run (.talkCloseReceived (env 7 4 7) 0 3) withEmptyChain).feed 0).stack = []
      ∧ (run (.talkCloseReceived (env 7 4 7) 0 3) withEmptyChain).channel 0 = Channel.rest
      ∧ ((run (.talkMoveReceived (env 6 3 8) 0 15) withChain).feed 0).find 5 0 = some { entryT 4 [0] with lane := 15 } := by
  decide +kernel

/-- An OPEN record of K1 with this many answers. -/
def answered (n : Nat) : State :=
  act.setPath 1 (some { pathT .opened with answers := (List.range n).map fun k => ⟨20 + k, 0, 70, .held, .none⟩ })

/-- Witness of AnswerHeard: 15 and 16 stored items, inside and outside the window, and an ANSWER for another talker. -/
theorem witness_AnswerHeard :
    (act.li.lineState = .active ∧ (env 6 5 37).good = true ∧ (env 6 5 37).sender ≠ act.number ∧ (act.peer 5).present = true
        ∧ malformed 16 (env 6 5 37) (.answer 12 1 9 [⟨5, 70, 0, 0⟩]) = false ∧ malformed 16 (env 6 5 37) (.answer 62 1 9 [⟨5, 70, 0, 0⟩]) = false)
      ∧ ((answered 15).path 1).any (fun p => p.state == .opened && p.serial == some 9 && p.answers.length == 15 && p.req.dests.contains 70) = true
      ∧ ((answered 16).path 1).any (fun p => p.answers.length == 16 && p.answers.all fun j => j.listener != 5) = true
      ∧ (answered 15).inWindow 1 9 = false
      ∧ ((answered 15).modTru fun t => { t with outstanding := [⟨1, 9, 0, [70], 3, false, [], [0]⟩] }).inWindow 1 9 = true := by
  decide +kernel

/-- A request of tag 1 and serial 9 with these answers. -/
def requested (answers : List Item) (s : State) : State :=
  s.modTru fun t => { t with outstanding := [⟨1, 9, 0, [70], 3, false, answers, [0]⟩] }

/-- Witness of AnswerHeard's other forms: a stored item of listener 5 and its F5, of the same and of another state; a request that has the item, and
one with 15 and 16 others; and two items in one ANSWER. -/
theorem witness_AnswerHeard_forms :
    (∀ o ∈ [Reason.none, .setBack],
      let s := act.setPath 1 (some { pathT .opened with answers := [⟨5, 5, 70, .held, o⟩] })
      (s.path 1).any (fun p => p.state == .opened && p.serial == some 9 && p.answers == [⟨5, 5, 70, .held, o⟩]) = true
        ∧ s.inWindow 1 9 = false ∧ s.path 2 = none)
      ∧ (∀ n ∈ [15, 16], (requested ((List.range n).map fun k => ⟨20 + k, 0, 70, .held, .none⟩) act).inWindow 1 9 = true)
      ∧ (requested [⟨5, 5, 70, .held, .none⟩] act).li.lineState = .active
      ∧ (let items : List WireItem := [⟨5, 70, 0, 0⟩, ⟨0, 71, 2, 4⟩]
        malformed 16 (env 6 5 (Message.answer 12 1 9 items).bodyLength) (.answer 12 1 9 items) = false ∧ items.tail ≠ []) := by decide +kernel

theorem test_answer_received :
    (run (.answerReceived (env 6 5 37) 12 1 9 [⟨5, 70, 1, 0⟩]) (answered 0)).cp.events = [.pathChange 1 5 5 70 .held .none]
      ∧ ((run (.answerReceived (env 6 5 37) 12 1 9 [⟨5, 70, 1, 0⟩]) (answered 16)).path 1).map Path.overflow = some [1]
      ∧ (run (.answerReceived (env 6 5 37) 12 1 9 [⟨5, 70, 0, 0⟩]) (requested [⟨5, 5, 70, .held, .none⟩] (answered 0))).tru.outstanding
        = [⟨1, 9, 0, [70], 3, false, [⟨5, 5, 70, .admitted, .none⟩], [0]⟩] := by decide +kernel

/-- Witness of FeedNoticeHeard: a record with the item of listener 5, one without, and a notice for another talker. -/
theorem witness_FeedNoticeHeard :
    let s := act.setPath 1 (some { pathT .opened with answers := [⟨5, 2, 70, .held, .none⟩] })
    (s.li.lineState = .active ∧ (env 6 6 17).good = true ∧ (env 6 6 17).sender ≠ s.number ∧ (s.peer 5).present = true
        ∧ malformed 16 (env 6 6 17) (.feedNotice 2 12 0 0 1) = false ∧ malformed 16 (env 6 6 17) (.feedNotice 2 62 0 0 1) = false
        ∧ (s.path 1).any (fun p => p.serial != none) = true)
      ∧ (∀ g, g < 14 → ∀ p ∈ (answered 15).path g, ∀ j ∈ p.answers, j.listener = 5 → j.feed ≠ 2)
      ∧ (∀ n ∈ (pathT .opened).serial, s.inWindow 1 n = false) ∧ s.tru.paths.length = 14
      ∧ (∀ n ∈ (pathT .opened).serial, (outs s 1 0).inWindow 13 200 = true ∧ n = 9) := by decide +kernel

theorem test_feed_notice_received :
    let s := act.setPath 1 (some { pathT .opened with answers := [⟨5, 2, 70, .held, .none⟩] })
    (run (.feedNoticeReceived (env 6 6 17) 2 12 0 0 1) s).cp.events = [.pathChange 1 5 2 70 .admitted .promoted]
      ∧ (run (.feedNoticeReceived (env 6 6 17) 2 12 0 0 1)
          (s.modTru fun t => { t with outstanding := [⟨1, 9, 0, [70], 3, false, [], [0]⟩] })).cp.events = [] := by decide +kernel

/-- Witness of CallHeard: F0 answers the own number; three records and none of the caller and key; four, with and without one. -/
theorem witness_CallHeard :
    let recs : List CallRec := [⟨20, 0, false, 70, 9⟩, ⟨21, 0, false, 70, 9⟩, ⟨22, 0, false, 70, 9⟩, ⟨23, 0, false, 70, 9⟩]
    (act.li.lineState = .active ∧ Sizes act ∧ (env 3 7 16).good = true ∧ (env 3 7 16).sender ≠ act.number ∧ (act.peer 5).present = true
        ∧ malformed 16 (env 3 7 16) (.call 11 1 [12]) = false ∧ act.matched 0 [12] = some 12
        ∧ ∀ j, j < 6 → j ≠ 0 → act.matched j [12] = none)
      ∧ ((recs.take 3).length < 4)
      ∧ ((recs.filter fun r => !(r.caller == 5 && r.key == 11)) = recs ∧ (recs.drop 1).length = 3
        ∧ ∀ r ∈ recs.drop 1, r.caller ≠ 20 ∨ r.key ≠ 0)
      ∧ (((recs.set 2 ⟨5, 11, false, 70, 9⟩).filter fun r => !(r.caller == 5 && r.key == 11)).length < 4) := by
  unfold Sizes; decide +kernel

/-- F0 has four call records. -/
def fourCalls : State :=
  act.modFeed 0 fun f => { f with calls := (List.range 4).map fun k => ⟨20 + k, 0, false, 70, 9⟩ }

/-- Witness of CallHeard with several feeds: ALL-CALL and the home number, with four records in F0 and none in F1. -/
theorem witness_CallHeard_feeds :
    (Sizes fourCalls ∧ fourCalls.li.lineState = .active ∧ malformed 16 (env 3 7 (Message.call 11 1 [70, 71]).bodyLength) (.call 11 1 [70, 71]) = false
        ∧ fourCalls.matched 0 [70, 71] = some 70 ∧ fourCalls.matched 1 [70, 71] = some 71 ∧ fourCalls.matched 5 [70, 71] = none)
      ∧ (∀ i, i < 6 → ((fourCalls.feed i).calls.map fun r => (r.caller, r.key)).Nodup ∧ (fourCalls.feed i).calls.length ≤ 4) := by
  unfold Sizes
  and_intros <;> decide +kernel

theorem test_call_received :
    (run (.callReceived (env 3 7 16) 11 1 [12]) act).cp.events = [.callIn 0 5 11 true 12]
      ∧ (run (.callReceived (env 3 7 16) 11 1 [12]) act).tone 0 = some ⟨.call, 0, 0, 0⟩
      ∧ (run (.callReceived (env 3 7 (Message.call 11 1 [70, 71]).bodyLength) 11 1 [70, 71]) fourCalls).cp.events
        = [.callExpired 0 20 0 .dropped, .callIn 0 5 11 true 70, .callIn 1 5 11 true 71] := by decide +kernel

/-- Witness of CallAckHeard: the four states of the record, no record, and another caller. -/
theorem witness_CallAckHeard :
    (act.li.lineState = .active ∧ (env 3 8 13).good = true ∧ (env 3 8 13).sender ≠ act.number ∧ (act.peer 5).present = true
        ∧ malformed 16 (env 3 8 13) (.callAck 12 5 11) = false ∧ malformed 16 (env 3 8 13) (.callAck 62 5 11) = false)
      ∧ act.callOrigin 11 = none ∧ (act.setCall 11 ⟨.idle, 0⟩).callOrigin 11 = some ⟨.idle, 0⟩
      ∧ (act.setCall 11 ⟨.queued, 1⟩).callOrigin 11 = some ⟨.queued, 1⟩ ∧ (act.setCall 11 ⟨.sent, 0⟩).callOrigin 11 = some ⟨.sent, 0⟩
      ∧ (act.setCall 11 ⟨.acked, 0⟩).callOrigin 11 = some ⟨.acked, 0⟩ := by decide +kernel

theorem test_call_ack_received :
    (run (.callAckReceived (env 3 8 13) 12 5 11) (act.setCall 11 ⟨.sent, 0⟩)).callOrigin 11 = some ⟨.acked, 0⟩
      ∧ (run (.callAckReceived (env 3 8 13) 12 5 11) (act.setCall 11 ⟨.queued, 1⟩)).cp.events = [.callAcked 11 5 5] := by decide +kernel

/-- F0 on air by this many stations. -/
def onAir (n : Nat) : State := act.modFeed 0 fun f => { f with onAir := (List.range n).map fun k => ⟨5 + k, 70, 9⟩ }

/-- Witness of TallyHeard: F0 off air with entries, on air by one, three and four others and by the sender. -/
theorem witness_TallyHeard :
    (act.li.lineState = .active ∧ Sizes act ∧ EntryLaw act ∧ (env 2 9 9).good = true ∧ (env 2 9 9).sender ≠ act.number
        ∧ (act.peer 5).present = true ∧ malformed 16 (env 2 9 9) (.tally 70 true) = false ∧ act.matched 0 [70] = some 70
        ∧ (∀ j, j < 6 → j ≠ 0 → act.matched j [70] = none) ∧ (act.feed 0).onAir = [])
      ∧ (let s := act.modFeed 0 fun f => { f with stack := [entryT 3 []], deferred := List.replicate 0 (entryT 2 []) }
        EntryLaw s ∧ (∀ e ∈ (s.feed 0).entries, e.chain = [] ∧ e.wantsMemo = false) ∧ (s.feed 0).deferred.length ≤ 8)
      ∧ ((onAir 1).feed 0).onAir ≠ [] ∧ ((onAir 1).feed 0).onAir.any (fun r => r.origin == 5 && r.dest == 70) = true
      ∧ (let s := act.modFeed 0 fun f => { f with onAir := List.replicate 3 ⟨20, 70, 9⟩ }
        (s.feed 0).onAir.any (fun r => r.origin == 5 && r.dest == 70) = false ∧ (s.feed 0).onAir.length < 4)
      ∧ 4 ≤ ((act.modFeed 0 fun f => { f with onAir := List.replicate 4 ⟨20, 70, 9⟩ }).feed 0).onAir.length := by
  unfold Sizes EntryLaw feedOrdered
  and_intros <;> decide +kernel

theorem test_tally_received :
    let s := act.modFeed 0 fun f => { f with stack := [entryT 3 []] }
    ((run (.tallyReceived (env 2 9 9) 70 true) s).feed 0).entries = []
      ∧ (run (.tallyReceived (env 2 9 9) 70 true) act).cp.events = [.tallyChange 0 true 5 70 .on]
      ∧ (run (.tallyReceived (env 2 9 9) 70 false) (onAir 1)).cp.events = [.tallyChange 0 false 5 70 .off] := by decide +kernel

/-- A clock of F0 for origin 5, or for another. -/
def clocked (origins : List Nat) : State :=
  { act with tcu := { act.tcu with clocks := origins.map fun o => if o = 0 then none else some ⟨o, 70, 0, 9, false, 9000⟩ } }

/-- Witness of CueHeard: the clock of the sender in the last place, none of it with the first IDLE or all RUNNING; and a stop. -/
theorem witness_CueHeard :
    (act.li.lineState = .active ∧ Sizes act ∧ ClockLaw act ∧ (env 3 10 16).good = true ∧ (env 3 10 16).sender ≠ act.number
        ∧ (act.peer 5).present = true ∧ act.matched 0 [70] = some 70 ∧ (∀ j, j < 6 → j ≠ 0 → act.matched j [70] = none)
        ∧ malformed 16 (env 3 10 16) (.cue 70 127 1) = false ∧ malformed 16 (env 3 10 16) (.cue 70 0 0) = false)
      ∧ (ClockLaw (clocked [20, 21, 22, 5]) ∧ Sizes (clocked [20, 21, 22, 5]) ∧ (clocked [20, 21, 22, 5]).clock 3 = some ⟨5, 70, 0, 9, false, 9000⟩)
      ∧ (ClockLaw (clocked [20, 21, 22, 0]) ∧ (clocked [20, 21, 22, 0]).clock 3 = none)
      ∧ ClockLaw (clocked [20, 21, 22, 23]) := by
  unfold Sizes ClockLaw
  and_intros <;> decide +kernel

/-- 127 seconds run as 99 (R161). -/
theorem test_cue_received :
    (run (.cueReceived (env 3 10 16) 70 127 1) act).clock 0 = some ⟨5, 70, 0, 99, true, 99000⟩
      ∧ (run (.cueReceived (env 3 10 16) 70 3 0) (clocked [20, 21, 22, 23])).cp.events = [.cueRefused 0 5 70 3]
      ∧ (run (.cueStopReceived (env 3 10 16) 70 0) (clocked [20, 21, 22, 5])).clock 3 = none := by decide +kernel

/-! ### Witnesses: lane slots -/

/-- Witness of LaneSlotHeard: lanes 15 and 16, a good slot and one of a source above 4. -/
theorem witness_LaneSlotHeard :
    (Sizes act ∧ act.li.lineState = .active ∧ (at' .listening).li.lineState = .listening ∧ 15 < lanesOf act.li.strapOrg
        ∧ goodSlot true quietSlot = true ∧ quietSlot.holder ≠ act.number ∧ act.lane 15 = .free)
      ∧ goodSlot false quietSlot = false ∧ goodSlot true { quietSlot with source := 5 } = false ∧ lanesOf act.li.strapOrg ≤ 16 := by
  unfold Sizes; decide +kernel

theorem test_lane_slot_received :
    (run (.laneSlotReceived 15 true false quietSlot) act).lane 15 = .held 5 0 0 0 true
      ∧ (run (.laneSlotReceived 15 false false quietSlot) act).lane 15 = .free
      ∧ (run (.laneSlotReceived 15 false false quietSlot) act).mx.store.getD 15 none = some ⟨quietSlot, false, 0⟩ := by decide +kernel

/-- Lane 2 is S0's and its slot is driven. -/
def slotDriven (ls : LineState) : State :=
  (mined (at' ls)).modLi fun li => { li with driving := some (.slot 2 ownSlot) }

/-- Witness of LaneSlotHeard's own slot, and what becomes of it: it is in the store, and the lane stays MINE. -/
theorem test_own_slot_read_back :
    (Sizes (slotDriven .active) ∧ (slotDriven .active).drivesSlot 2 = true ∧ ownSlot.holder = (slotDriven .active).number
        ∧ goodSlot true ownSlot = true ∧ (slotDriven .active).li.lineState = .active)
      ∧ (run (.laneSlotReceived 2 true true ownSlot) (slotDriven .active)).mx.store.getD 2 none = some ⟨ownSlot, true, 0⟩
      ∧ (run (.laneSlotReceived 2 true true ownSlot) (slotDriven .active)).lane 2 = .mine 0 := by
  unfold Sizes; decide +kernel

/-- F0's top is talker 5's S0, heard on lane 2, with a memo chain of these channels, the last of `n` blocks and those before it full. -/
def memoed (chain : List Nat) (n : Nat) : State :=
  let s := (cutIn [{ ent 5 4 with chain := chain }] []).setLane 2 (.held 5 0 0 0 true)
  (chain.foldl (fun s c => s.modChannel c fun _ =>
    ⟨.play, some ⟨0, 5, 0⟩, List.replicate (if some c = chain.getLast? then n else 16) zeroBlock, 0, false⟩) s)

/-- A voiced slot of talker 5's S0. -/
def voiced : Slot := { quietSlot with quiet := false, samples := List.replicate 48 (-129) }

/-- Witness of MemoSteps, capture: a tail one block short of its 16, a full one with the next channel IDLE, and a full one at channel 3. -/
theorem witness_MemoSteps :
    (Lawful (memoed [0] 15) ∧ (memoed [0] 15).lane 2 = .held 5 0 0 0 true ∧ goodSlot true voiced = true ∧ voiced.quiet = false
        ∧ voiced.samples.length = 48 ∧ (((memoed [0] 15).feed 0).find 5 0).any (fun e => e.lane == 2 && e.chain == [0]) = true
        ∧ ((memoed [0] 15).channel 0).blocks.length < ((memoed [0] 15).memoCfg 0).capacity
        ∧ ∀ j, j < 6 → j ≠ 0 → ((memoed [0] 15).feed j).find 5 0 = none)
      ∧ (Lawful (memoed [2] 16) ∧ (act.memoCfg 2).chain = true ∧ ((memoed [2] 16).channel 3).state = .idle)
      ∧ (quietSlot.quiet = true ∧ quietSlot.holder ≠ (memoed [0] 15).number ∧ ownSlot.holder = (memoed [0] 15).number)
      ∧ Lawful (memoed [3] 16) ∧ ¬((memoed [3] 16).channel 3).blocks.length < ((memoed [3] 16).memoCfg 3).capacity := by
  unfold Lawful Sizes EntryLaw feedOrdered ArbiterLaw feedLawful entryInOrder feedFits heldInOrder MemoLaw channelLawful chainLawful
    memosInRange
  and_intros <;> decide +kernel

/-- F0 as the read pass finds it: a top with a chain, live or draining, over an entry with a chain or none. -/
def reading (chain : List Nat) (n : Nat) (live : Bool) : State :=
  let top : Entry := { ent 5 4 with chain := chain, tags := if live then [⟨3, 4, 70, true⟩] else [] }
  let s := cutIn [{ ent 6 3 with chain := [3] }, top] []
  let s := s.modChannel 3 fun _ => ⟨.pause, some ⟨0, 6, 0⟩, [zeroBlock, zeroBlock], 0, false⟩
  chain.foldl (fun s c => s.modChannel c fun _ =>
    ⟨if live then .play else .drain, some ⟨0, 5, 0⟩, List.replicate n zeroBlock, 0, false⟩) s

/-- Witness of MemoSteps, the read pass: a head of one block with a tail behind it, and the tail itself; an empty chain of a live entry; and
one of a draining entry over an entry that is read. -/
theorem witness_MemoSteps_read :
    (Lawful (reading [0, 1] 1 true) ∧ mixingFeed (act.feedCfg 0) = false
        ∧ ((reading [0, 1] 1 true).feed 0).stack.getLast?.any (fun e => e.chain == [0, 1] && !e.draining) = true
        ∧ ((reading [0, 1] 1 true).channel 0).blocks = [zeroBlock])
      ∧ (Lawful (reading [0] 1 true) ∧ Lawful (reading [0] 0 true) ∧ ((reading [0] 0 true).channel 0).blocks = [])
      ∧ Lawful (reading [0] 0 false) ∧ ((reading [0] 0 false).feed 0).deferred = []
        ∧ ((reading [0] 0 false).feed 0).stack.getLast?.any Entry.draining = true := by
  unfold Lawful Sizes EntryLaw feedOrdered ArbiterLaw feedLawful entryInOrder feedFits heldInOrder MemoLaw channelLawful chainLawful
    memosInRange
  and_intros <;> decide +kernel

/-- What those openings ask of a state for F0. -/
def opensFeed (s : State) : Prop :=
  Lawful s ∧ s.owed = [] ∧ s.li.lineState ≠ .offline ∧ s.li.leavingCount < 19 ∧ usedFeed (s.feedCfg 0) = true
    ∧ ∀ k, k < 12 → (s.keyCfg k).kind ≠ 1

/-- Witness of MemoSteps' and MixOfAFeed's opening: F0 with a chain of one block, no other feed with memo, no key of the PIN-LEVEL kind. -/
theorem witness_opening_reads :
    (opensFeed (reading [0] 1 true) ∧ (reading [0] 1 true).li.lineState = .active
        ∧ (∀ j, j < 6 → j ≠ 0 → ((reading [0] 1 true).feed j).entries = []) ∧ ((reading [0] 1 true).channel 0).blocks = [zeroBlock])
      ∧ (∀ d : Due, d.kind ∈ allApart)
      ∧ opensFeed (leavingAt 18) ∧ opensFeed (at' .listening) ∧ opensFeed (at' .silenced) := by
  refine ⟨?_, fun d => by cases d <;> simp [Due.kind, allApart], ?_⟩ <;>
    unfold opensFeed Lawful Sizes EntryLaw feedOrdered ArbiterLaw feedLawful entryInOrder feedFits heldInOrder MemoLaw channelLawful
      chainLawful memosInRange <;>
    and_intros <;> decide +kernel

/-- A FINE slot is stored narrowed: −129 becomes −1; a full channel 3 loses the block with MEMO-STATE FULL; a draining entry leaves and the
one beneath it is read (R114, R115, R116, R138). -/
theorem test_memo_steps :
    ((run (.laneSlotReceived 2 true false voiced) (memoed [0] 15)).channel 0).blocks.getLast? = some (List.replicate 48 (-1))
      ∧ ((run (.laneSlotReceived 2 true false voiced) (memoed [2] 16)).channel 3).blocks.length = 1
      ∧ (run (.laneSlotReceived 2 true false voiced) (memoed [3] 16)).cp.events = [.memoState 0 5 0 (.full 3)]
      ∧ (((reading [0] 0 false).readPass 0).feed 0).stack.map Entry.talker = [6]
      ∧ (((reading [0] 0 false).readPass 0).channel 3).blocks.length = 1
      ∧ ((run (.cycleOpening pinsUp []) (reading [0] 1 true)).channel 0).blocks = []
      ∧ ((run (.cycleOpening pinsUp []) (reading [0] 1 true)).mix 0).playout.length = 48 := by decide +kernel

/-- S0 is VOICE with 48 samples of −129. -/
def voicing : State := (mined act).modVox 0 fun v => { v with voice := true, block := List.replicate 48 (-129) }

/-- Witness of OwnLaneSlots: a MINE lane of S0, VOICE too, and of S4, and a slot driven in ACTIVE and in LEAVING. -/
theorem witness_OwnLaneSlots :
    (voicing.lane 2 = .mine 0 ∧ (voicing.vox 0).voice = true ∧ (voicing.vox 0).block.length = 48)
      ∧
    ((mined act).lane 2 = .mine 0 ∧ (mined act).li.driving = none ∧ (act.setLane 15 (.mine 4)).lane 15 = .mine 4)
      ∧ (Sizes (slotDriven .active) ∧ 2 < lanesOf (slotDriven .active).li.strapOrg ∧ (slotDriven .active).number ≠ 62
        ∧ (slotDriven .active).li.driving = some (.slot 2 ownSlot) ∧ (slotDriven .active).lane 2 = .mine 0
        ∧ (slotDriven .active).li.lineState = .active)
      ∧ Sizes (slotDriven .leaving) ∧ (slotDriven .leaving).li.lineState = .leaving
      ∧ (((slotDriven .active).source 0).phase = .mine 2 ∧ (slotDriven .active).pickable 0 0 ∧ ((slotDriven .active).peer 62).present = false)
      ∧ (let s := (busyLanes (slotDriven .active)).setLane 2 (.mine 0)
        Sizes s ∧ s.lane 2 = .mine 0 ∧ (s.source 0).phase = .mine 2 ∧ (s.peer 5).present = true ∧ ∀ l, l < 16 → s.lane l ≠ .free) := by
  unfold State.pickable Sizes
  and_intros <;> decide +kernel

/-- Lane 2 begins at bit 3300, 132 µs after the mark's start (R203). -/
theorem test_lane_slot_transmit :
    (run (.laneSlotTransmit 2) (mined act)).li.driving = some (.slot 2 ⟨12, 0, true, 0, zeroBlock⟩)
      ∧ (run (.laneSlotTransmit 2) (mined act)).li.micros = 132
      ∧ (run (.laneSlotTransmit 2) voicing).li.driving = some (.slot 2 ⟨12, 0, false, 0, List.replicate 48 (-129)⟩)
      ∧ (run (.laneSlotTransmit 2) (voicing.modLi fun li => { li with strapOrg := 2 })).li.driving
        = some (.slot 2 ⟨12, 0, false, 0, List.replicate 48 (-1)⟩) := by decide +kernel

theorem test_slot_header_lost :
    (run (.slotHeaderLost 62) (slotDriven .active)).lane 2 = .held 62 0 0 0 true
      ∧ ((run (.slotHeaderLost 62) (slotDriven .active)).source 0).phase = .pending 0
      ∧ (run (.slotHeaderLost 62) ((busyLanes (slotDriven .active)).setLane 2 (.mine 0))).cp.events = [.peerChange 62 true none, .laneWait 0]
      ∧ ((run (.slotHeaderLost 62) (slotDriven .leaving)).source 0).phase = .idle := by decide +kernel

/-! ### Witnesses: the steps of an opening -/

/-- PIN key K0 with its level different at eight openings. -/
def bounced (s : State) (l : KeyLevel) : State := owing (s.modKey 0 fun _ => ⟨l, 7, .idle, false, 0, none⟩) (.debounce 0)

/-- Witness of DebounceTaken: a press in LISTENING and in ACTIVE, and a release. -/
theorem witness_DebounceTaken :
    Due.debounce 0 ∈ (bounced act .up).owed ∧ Sizes (bounced act .up) ∧ (act.keyCfg 0).fn = 1 ∧ (act.keyCfg 0).kind = 0
      ∧ (act.keyCfg 0).mode ≤ 2 ∧ 7 ≤ ((bounced act .up).key 0).debounce ∧ ((bounced act .up).key 0).stable = .up
      ∧ ((bounced act .down).key 0).stable = .down ∧ (bounced (at' .listening) .up).li.lineState = .listening
      ∧ (bounced act .up).path 0 = none := by
  unfold Sizes; decide +kernel

/-- K0 configured anew. -/
def rekeyed (c : KeyCfg) (s : State) : State := { s with cp := { s.cp with config := some { cfgT with keys := keysT.set 0 c } } }

/-- K0 made a PIN-LEVEL key. -/
def levelKey (s : State) : State := rekeyed ⟨1, 0, 1, 0, 3, 1, [70], false, 0, 0⟩ s

/-- K0 made a REPLY key of F0, PIN-EDGE (0) or PIN-LEVEL (1). -/
def replyKey (kind : Nat) (s : State) : State := rekeyed ⟨kind, 0, 3, 0, 2, 0, [], false, 0, 0⟩ s

/-- K0 made a CALL key, PIN-EDGE (0) or PIN-LEVEL (1), none of its CALLs queued. -/
def callKey (kind : Nat) (s : State) : State := rekeyed ⟨kind, 0, 2, 0, 0, 1, [70], false, 1, 0⟩ (s.setCall 0 ⟨.idle, 0⟩)

/-- F0's reply station is 5. -/
def replied (s : State) : State := s.modFeed 0 fun f => { f with reply := some 5 }

/-- Witness of DebounceTaken's other forms: a REPLY key with and without a reply station, a CALL key with 11 and 12 messages, and the release of a
MOMENTARY key that is OPENING and OPEN, with a record in each state. -/
theorem witness_DebounceTaken_forms :
    act.li.lineState = .active ∧ (let s := replyKey 0 (replied (bounced act .up))
      Sizes s ∧ (s.keyCfg 0).fn = 3 ∧ (s.keyCfg 0).mode ≤ 2 ∧ (s.feed (s.keyCfg 0).replyFeed).reply = some 5 ∧ s.path 0 = none)
      ∧ ((replyKey 0 (bounced act .up)).feed ((replyKey 0 (bounced act .up)).keyCfg 0).replyFeed).reply = none
      ∧ (let s := callKey 0 (bounced act .up)
        Sizes s ∧ (s.keyCfg 0).fn = 2 ∧ s.callOrigin 0 = some ⟨.idle, 0⟩ ∧ (filled s 11).li.queue.length < 12 ∧ 12 ≤ (filled s 12).li.queue.length)
      ∧ (∀ st ∈ [KeyState.opening, .opened], ∀ ps ∈ [PathState.preparing, .issued, .opened],
        let s := (owing (act.modKey 0 fun _ => ⟨.down, 7, st, false, 0, none⟩) (.debounce 0)).setPath 0 (some (pathT ps))
        Sizes s ∧ (s.keyCfg 0).mode = 0 ∧ (s.key 0).stable = .down ∧ (s.key 0).logical = st ∧ s.lockedMsg (isOpenOf 0) = false)
      ∧ (let s := replyKey 1 (replied act)
        Sizes s ∧ s.owed = [] ∧ (s.keyCfg 0).kind = 1 ∧ (s.keyCfg 0).fn = 3 ∧ (s.feed (s.keyCfg 0).replyFeed).reply = some 5 ∧ s.path 0 = none)
      ∧ (let s := callKey 1 act
        Sizes s ∧ (s.keyCfg 0).kind = 1 ∧ (s.keyCfg 0).fn = 2 ∧ (s.keyCfg 0).mode = 0 ∧ s.callOrigin 0 = some ⟨.idle, 0⟩
          ∧ (∀ j, j < 12 → j ≠ 0 → (s.keyCfg j).kind ≠ 1) ∧ s.cp.events.length ≤ 18) := by
  unfold Sizes
  and_intros <;> decide +kernel

/-- Witness of DebounceTaken's PIN-LEVEL key: a press in LISTENING with 18 events and in ACTIVE, and a release with a record in each state. -/
theorem witness_DebounceTaken_level :
    let s := levelKey act
    let open_ := (keyed s 0 .opened).setPath 0 (some (pathT .opened))
    (s.owed = [] ∧ Sizes s ∧ (s.keyCfg 0).fn = 1 ∧ (s.keyCfg 0).kind = 1 ∧ (s.keyCfg 0).mode = 0 ∧ s.path 0 = none
        ∧ (s.key 0).stable = .up ∧ (s.key 0).logical = .idle ∧ (pinsUp.set 0 .down).getD 0 .up = .down)
      ∧ ((levelKey (at' .listening)).li.lineState = .listening ∧ (List.replicate 18 (Event.laneWait 0)).length ≤ 18)
      ∧ (Sizes open_ ∧ (open_.key 0).stable = .down ∧ (open_.key 0).logical = .opened ∧ open_.path 0 = some (pathT .opened))
      ∧ ((keyed s 0 .opening).setPath 0 (some (pathT .preparing))).path 0 = some (pathT .preparing) := by
  unfold Sizes; decide +kernel

/-- A PIN-LEVEL key follows its pin at one opening (R45). -/
theorem test_pin_level :
    ((run (.cycleOpening (pinsUp.set 0 .down) []) (levelKey act)).key 0).logical = .opening
      ∧ (run (.cycleOpening (pinsUp.set 0 .down) []) (levelKey (at' .listening))).cp.events = [.keyRefused 0 .line]
      ∧ ((run (.cycleOpening pinsUp []) ((keyed (levelKey act) 0 .opened).setPath 0 (some (pathT .opened)))).path 0).map Path.state
        = some .closing
      ∧ ((run (.cycleOpening (pinsUp.set 0 .down) []) (replyKey 1 (replied act))).key 0).resolved = some 5
      ∧ (run (.cycleOpening (pinsUp.set 0 .down) []) (callKey 1 act)).callOrigin 0 = some ⟨.queued, 1⟩ := by decide +kernel

theorem test_debounce_complete :
    ((run (.debounceComplete 0) (bounced act .up)).key 0).logical = .opening
      ∧ (run (.debounceComplete 0) (replyKey 0 (bounced act .up))).cp.events = [.keyRefused 0 .noReply]
      ∧ (run (.debounceComplete 0) (callKey 0 (bounced act .up))).li.queue.map OutMsg.msg = [.call 0 1 [70]]
      ∧ (run (.debounceComplete 0) (bounced (at' .listening) .up)).cp.events = [.keyRefused 0 .line]
      ∧ (run (.cycleOpening (pinsUp.set 0 .down) [.debounce]) (act.modKey 0 fun r => { r with debounce := 7 })).owed = [.debounce 0] := by
  decide +kernel

/-- Lane 3 is HELD at age 4. -/
def heldLane : State := owing (act.setLane 3 (.held 5 0 0 4 true)) (.lane 3)

/-- Every lane is HELD at age 4, and S0 is WAITING. -/
def heldAll : State :=
  owing ({ act with plt := { act.plt with lanes := List.replicate 16 (.held 5 0 0 4 true) } }.modSource 0
    fun _ => ⟨true, .waiting, false⟩) (.lane 3)

/-- Peer 5 has been silent for 1000 cycles. -/
def silent : State := owing (act.modPeer 5 fun p => { p with age := 1000 }) (.peer 5)

/-- Witness of AgingAndRequestSteps: 11 and 12 messages; peer 5 of age 1000; a HELD lane of age 4, alone and with S0 WAITING for it. -/
theorem witness_AgingAndRequestSteps :
    (Due.presence ∈ (owing act .presence).owed ∧ act.li.lineState = .active ∧ Sizes (owing act .presence)
        ∧ (filled act 11).li.queue.length < 12 ∧ 12 ≤ (filled act 12).li.queue.length)
      ∧ (Sizes silent ∧ Due.peer 5 ∈ silent.owed ∧ (silent.peer 5).present = true ∧ 1000 ≤ (silent.peer 5).age ∧ 5 ≠ silent.number)
      ∧ (Sizes heldLane ∧ Due.lane 3 ∈ heldLane.owed ∧ heldLane.lane 3 = .held 5 0 0 4 true ∧ 3 < lanesOf heldLane.li.strapOrg)
      ∧ (Sizes heldAll ∧ (heldAll.source 0).phase = .waiting ∧ (∀ l, l < heldAll.plt.lanes.length → heldAll.lane l ≠ .free)
        ∧ ∀ k, k < 5 → (heldAll.source k).phase ≠ .pending 3) := by
  unfold Sizes
  and_intros <;> decide +kernel

theorem test_presence_due_and_aging :
    (run .presenceDue (owing act .presence)).li.queue.map OutMsg.msg = [.presence false 7 true 0]
      ∧ (run (.peerAgingAbsent 5) silent).cp.events = [.peerChange 5 false none]
      ∧ (run (.laneAgeExpiry 3) heldLane).lane 3 = .free := by decide +kernel

/-- S`n` is CLAIMING lane 2 with its window over. -/
def claimed (n : Nat) (moved : Bool) : State :=
  owing ((act.setLane 2 (.claiming n 2)).modSource n fun _ => ⟨true, .claiming 2, moved⟩) (.claim 2)

/-- Two records of S0 are PREPARING, with this many requests outstanding. -/
def preparingTwo (n : Nat) : State :=
  outs (((claimed 0 false).setPath 1 (some (Path.prepared ⟨0, 3, false, [70]⟩))).setPath 13 (some (Path.prepared ⟨0, 4, false, [71]⟩))) n 0

/-- Witness of ClaimSentAndWindowCloses: S0 with and without the moved flag, 15 and 16 messages, an OPEN record on another lane, two
PREPARING records with 4 and 5 requests outstanding, and S4. -/
theorem witness_ClaimSentAndWindowCloses :
    (Sizes (preparingTwo 4) ∧ (preparingTwo 4).path 1 = some (Path.prepared ⟨0, 3, false, [70]⟩) ∧ (preparingTwo 4).tru.outstanding.length = 4
        ∧ (preparingTwo 4).path 13 = some (Path.prepared ⟨0, 4, false, [71]⟩) ∧ (preparingTwo 5).tru.outstanding.length = 5
        ∧ (preparingTwo 4).issuedCount = 0 ∧ (filled (preparingTwo 4) 10).li.queue.length ≤ 10
        ∧ ∀ k, k < 14 → k = 1 ∨ k = 13 ∨ (preparingTwo 4).path k = none)
      ∧ (((claimed 0 false).setPath 1 (some { pathT .opened with lane := some 7 })).path 1 = some { pathT .opened with lane := some 7 })
      ∧
    (Sizes (claimed 0 true) ∧ Due.claim 2 ∈ (claimed 0 true).owed ∧ (claimed 0 true).li.lineState = .active
        ∧ 2 < lanesOf act.li.strapOrg ∧ (claimed 0 true).lane 2 = .claiming 0 2 ∧ ((claimed 0 true).source 0).moved = true)
      ∧ (filled (claimed 0 true) 15).li.queue.length < 16 ∧ 16 ≤ (filled (claimed 0 true) 16).li.queue.length
      ∧ ((claimed 0 false).source 0).moved = false ∧ (∀ g, g < 14 → (claimed 0 false).path g = none)
      ∧ Sizes (claimed 4 false) ∧ (claimed 4 false).lane 2 = .claiming 4 2 := by
  unfold Sizes
  and_intros <;> decide +kernel

/-- An OPEN record on another lane has one TALK-MOVE, and PREPARING records go out in the order of their tags, six at most (R61, R71). -/
theorem test_hand_over :
    (run (.claimWindowEnd 2) ((claimed 0 false).setPath 1 (some { pathT .opened with lane := some 7 }))).li.queue.map OutMsg.msg
        = [.talkMove 0 2]
      ∧ (run (.claimWindowEnd 2) (preparingTwo 4)).li.queue.map OutMsg.msg
        = [.talkOpen ⟨0, 1, 0, 3, false, false, 2, [70]⟩, .talkOpen ⟨0, 13, 1, 4, false, false, 2, [71]⟩]
      ∧ ((run (.claimWindowEnd 2) (preparingTwo 5)).path 13).map Path.state = some .preparing := by decide +kernel

theorem test_claim_window_end :
    (run (.claimWindowEnd 2) (claimed 0 true)).lane 2 = .mine 0
      ∧ (run (.claimWindowEnd 2) (claimed 0 true)).li.queue.map OutMsg.msg = [.talkMove 0 2]
      ∧ (run (.claimWindowEnd 2) ((claimed 0 false).setPath 1 (some (Path.prepared ⟨0, 3, false, [70]⟩)))).li.queue.map OutMsg.msg
        = [.talkOpen ⟨0, 1, 0, 3, false, false, 2, [70]⟩] := by decide +kernel

/-- The head of six requests is of age 16, and K1's record waits with S0's lane. -/
def retiring : State := owing ((outs (mined act) 6 16).setPath 1 (some (Path.prepared ⟨0, 3, false, [70]⟩))) .retire

/-- Witness of AgingAndRequestSteps' requests: a head of age 16, a PREPARING record that the place lets out, and a listed destination of
count 500. -/
theorem witness_AgingAndRequestSteps_requests :
    (Due.retire ∈ retiring.owed ∧ retiring.tru.outstanding.length = 6 ∧ retiring.issuedCount = 0 ∧ retiring.mineLane 0 = some 2
        ∧ retiring.path 1 = some (Path.prepared ⟨0, 3, false, [70]⟩) ∧ (∀ k, k < 14 → ∀ r ∈ retiring.path k, k = 1)
        ∧ retiring.li.queue.length < 12)
      ∧
    (Due.retire ∈ (owing (outs act 2 16) .retire).owed ∧ (outs act 2 16).tru.outstanding.length = 2
        ∧ (outs act 2 16).tru.outstanding.head?.any (fun o => o.age == 16) = true)
      ∧ (let s := owing (act.modTru fun t => { t with tallies := [⟨255, 500⟩] }) (.refresh 255)
        s.li.lineState = .active ∧ Due.refresh 255 ∈ s.owed ∧ ⟨255, 500⟩ ∈ s.tru.tallies)
      ∧ (filled act 11).li.queue.length < 12 ∧ 12 ≤ (filled act 12).li.queue.length := by decide +kernel

theorem test_retirement_lets_out :
    (run .outstandingEntryRetire retiring).li.queue.map OutMsg.msg = [.talkOpen ⟨0, 1, 0, 3, false, false, 2, [70]⟩] := by decide +kernel

theorem test_request_steps :
    (run .outstandingEntryRetire (owing (outs act 1 16) .retire)).cp.events = [.pathResult 13 200 3 false [⟨70, 0, 0, 0, 0, 0⟩]]
      ∧ (run .outstandingEntryRetire (owing (act.modTru fun t => { t with outstanding :=
          [⟨1, 9, 0, [70, 71], 16, true, [⟨5, 0, 71, .held, .none⟩, ⟨6, 0, 71, .refused, .floor⟩, ⟨7, 0, 70, .admitted, .none⟩], [0, 2]⟩] }) .retire)).cp.events
        = [.pathResult 1 9 0 true [⟨70, 1, 0, 0, 0, 0⟩, ⟨71, 0, 1, 1, 0, 2⟩]]
      ∧ (run (.tallyRefresh 255) (owing (act.modTru fun t => { t with tallies := [⟨255, 500⟩] }) (.refresh 255))).tru.tallies = [⟨255, 0⟩] := by
  decide +kernel

/-- F0 holds an entry at the defer limit of 1000. -/
def deferred : State :=
  owing (act.modFeed 0 fun f => { f with deferred := [{ entryT 3 [] with deferAge := 1000 }] }) (.defer 0 5 0)

/-- F0 with call records of these ages, urgent. -/
def calling (ages : List Nat) (d : Due) : State :=
  owing (act.modFeed 0 fun f => { f with calls := ages.map fun a => ⟨5, 11, true, 70, a⟩ }) d

/-- Witness of ArbiterClockAndToneSteps: a held entry at the limit, an on-air record of age 2000, alone and not, urgent calls at each repeat, and one
of age 30000. -/
theorem witness_ArbiterClockAndToneSteps :
    (deferred.li.lineState = .active ∧ Sizes deferred ∧ Due.defer 0 5 0 ∈ deferred.owed ∧ EntryLaw deferred
        ∧ { entryT 3 [] with deferAge := 1000 } ∈ (deferred.feed 0).deferred ∧ deferred.cfg.station.deferLimit ≤ 1000)
      ∧ (let s := owing (act.modFeed 0 fun f => { f with onAir := [⟨5, 70, 2000⟩, ⟨6, 70, 9⟩] }) (.onAir 0 5 70)
        Due.onAir 0 5 70 ∈ s.owed ∧ ⟨5, 70, 2000⟩ ∈ (s.feed 0).onAir)
      ∧ (Due.callRepeat 0 5 11 ∈ (calling [5000] (.callRepeat 0 5 11)).owed ∧ ⟨5, 11, true, 70, 5000⟩ ∈ ((calling [5000] (.callRepeat 0 5 11)).feed 0).calls
        ∧ ⟨5, 11, true, 70, 25000⟩ ∈ ((calling [25000] (.callRepeat 0 5 11)).feed 0).calls)
      ∧ (Due.callExpiry 0 5 11 ∈ (calling [30000] (.callExpiry 0 5 11)).owed
        ∧ ⟨5, 11, true, 70, 30000⟩ ∈ ((calling [30000] (.callExpiry 0 5 11)).feed 0).calls) := by
  unfold Sizes EntryLaw feedOrdered
  and_intros <;> decide +kernel

theorem test_arbiter_steps :
    (run (.deferExpiry 0 5 0) deferred).li.queue.map OutMsg.msg = [.feedNotice 0 5 0 3 3]
      ∧ ((run (.deferExpiry 0 5 0) deferred).feed 0).deferred = []
      ∧ (run (.onAirExpiry 0 5 70) (owing (act.modFeed 0 fun f => { f with onAir := [⟨5, 70, 2000⟩] }) (.onAir 0 5 70))).cp.events
        = [.tallyChange 0 false 5 70 .expired]
      ∧ (run (.callRepeat 0 5 11) (calling [5000] (.callRepeat 0 5 11))).tone 0 = some ⟨.call, 0, 0, 0⟩
      ∧ (run (.callExpiry 0 5 11) (calling [30000] (.callExpiry 0 5 11))).cp.events = [.callExpired 0 5 11 .age] := by decide +kernel

/-- Clock 3 runs for F5, lead 400, with this much left. -/
def counting (remaining : Nat) (repeats : Bool) (origin : Nat) (d : Due) : State :=
  owing (act.setClock 3 (some ⟨origin, 72, 5, 9, repeats, remaining⟩)) d

/-- Witness of ArbiterClockAndToneSteps' clocks: a request with the pattern of its test; zero for a repeating, a single and an ABSENT
origin's clock, and with a request still to send; and a tone whose phase is over. -/
theorem witness_ArbiterClockAndToneSteps_clocks :
    let both := { counting 0 true 5 (.cueZero 3) with owed := [.cueTone 3 5 .cueZero, .cueZero 3] }
    (Sizes (counting 400 false 5 (.cueTone 3 5 .cueZero)) ∧ Due.cueTone 3 5 .cueZero ∈ (counting 400 false 5 (.cueTone 3 5 .cueZero)).owed
        ∧ (counting 400 false 5 (.cueTone 3 5 .cueZero)).li.lineState = .active)
      ∧ (Due.cueZero 3 ∈ (counting 0 true 5 (.cueZero 3)).owed ∧ (counting 0 true 5 (.cueZero 3)).clock 3 = some ⟨5, 72, 5, 9, true, 0⟩
        ∧ (act.peer 5).present = true ∧ (act.peer 62).present = false ∧ (counting 0 true 5 (.cueZero 3)).li.lineState = .active)
      ∧ (Due.cueZero 3 ∈ both.owed ∧ Due.cueTone 3 5 .cueZero ∈ both.owed ∧ both.owed.count (.cueTone 3 5 .cueZero) = 1 ∧ Sizes both)
      ∧ (let x : Tone := ⟨.cueBeep, 0, (Pattern.phases .cueBeep).head!.2, 0⟩
        let s := owing (act.setTone 5 (some x)) (.tonePhase 5)
        Sizes s ∧ Due.tonePhase 5 ∈ s.owed ∧ s.tone 5 = some x ∧ x.phase < x.pattern.phases.length) := by
  unfold Sizes
  and_intros <;> decide +kernel

/-- An opening that takes a clock of lead 0 to zero with the request left apart leaves both, the request in front; the zero sends it first, and
a restarted clock does not change it (R163, R164, log 4). -/
theorem test_clock_steps :
    let last := act.setClock 3 (some ⟨5, 70, 0, 9, true, 1⟩)
    let t := run (.cycleOpening pinsUp [.cueTone]) last
    t.owed = [.cueTone 3 0 .cueZero, .cueZero 3]
      ∧ ((run (.cueClockZero 3) t).tone 0).map Tone.pattern = some .cueZero
      ∧ (run (.cueClockZero 3) t).clock 3 = some ⟨5, 70, 0, 9, true, 9000⟩ ∧ (run (.cueClockZero 3) t).owed = []
      ∧ (run (.cueClockZero 3) (counting 0 true 62 (.cueZero 3))).cp.events = [.cueExpired 3 5 62 72 true]
      ∧ ((run (.cueToneRequest 3) (counting 9000 false 5 (.cueTone 3 5 .cueBeep))).tone 5).map Tone.pattern = some .cueBeep := by
  decide +kernel

/-- The CALL tone's first phase is 100 cycles; after it comes the pause of the second (R157). -/
theorem test_tone_phase_end :
    (run (.tonePhaseEnd 5) (owing (act.setTone 5 (some ⟨.call, 0, (Pattern.phases .call).head!.2, 48⟩)) (.tonePhase 5))).tone 5
      = some ⟨.call, 1, 0, 0⟩ := by decide +kernel

/-- A source at the end of its hang of 50. -/
def hanging : State := owing (act.modVox 0 fun v => { v with voice := true, hang := 50 }) (.hang 0)

/-- LEAVING after this many openings, its end due. -/
def leavingDue (n : Nat) : State := owing (leavingAt n) .leaving

/-- Channel A plays, has heard nothing for 100 cycles, and its open talk stands OPEN on tag 12. -/
def losing (st : PathState) : State :=
  owing ((act.modChan 0 fun c => { c with state := .playing, loss := 100, openTalk := .opened }).setPath 12
    (some { pathT st with req := ⟨2, 4, false, [70]⟩ })) (.fieldLoss 0)

/-- Witness of HangLeavingAndLossSteps. -/
theorem witness_HangLeavingAndLossSteps :
    (Sizes hanging ∧ Due.hang 0 ∈ hanging.owed ∧ (hanging.sourceCfg 0).vox ≠ 0 ∧ (hanging.vox 0).voice = true
        ∧ (hanging.sourceCfg 0).hang ≤ (hanging.vox 0).hang)
      ∧ (Due.leaving ∈ (leavingDue 20).owed ∧ (leavingDue 20).li.lineState = .leaving ∧ 20 ≤ (leavingDue 20).li.leavingCount ∧ Sizes (leavingDue 20))
      ∧ (Sizes (losing .opened) ∧ Due.fieldLoss 0 ∈ (losing .opened).owed ∧ 100 ≤ ((losing .opened).chan 0).loss
        ∧ ((losing .opened).chan 0).state = .playing ∧ ((losing .opened).chan 0).openTalk ≠ .none
        ∧ ((losing .opened).path 12).any (fun p => p.state == .opened) = true
        ∧ ((losing .preparing).path 12).any (fun p => p.state == .preparing) = true) := by
  unfold Sizes
  and_intros <;> decide +kernel

/-- Witness of HangLeavingAndLossSteps' end of need: S2 PENDING, CLAIMING and MINE on lane 2, with S1 WAITING; and what becomes of the lane. -/
theorem test_loss_ends_need :
    (∀ x ∈ [(Phase.pending 2, Lane.free), (.claiming 2, .claiming 2 1), (.mine 2, .mine 2)],
      let s := (ending x.1 x.2).modSource 0 fun _ => ⟨false, .idle, false⟩
      let s := { losing .opened with plt := (s.modSource 2 fun _ => ⟨true, x.1, false⟩).plt }
      handsLane 2 s ∧ (∀ p ∈ s.path 12, p.req.source = 2) ∧ ((run (.fieldLoss 0) s).source 1).phase = .pending 2) := by
  unfold handsLane Sizes
  decide +kernel

theorem test_hang_leaving_and_loss :
    ((run (.hangExpiry 0) hanging).vox 0).voice = false ∧ (run .leavingTimeout (leavingDue 20)).li.lineState = .offline
      ∧ (run .leavingTimeout (leavingDue 19)).li.lineState = .leaving
      ∧ (run (.fieldLoss 0) (losing .opened)).cp.events = [.fieldState 0 .playing .lost 0 .loss]
      ∧ (run (.fieldLoss 0) (losing .opened)).li.queue.map OutMsg.msg = [.talkClose 2 12] := by decide +kernel

/-! ### Witnesses: field and samples -/

/-- Channel A in a state with frame 100 due and these frames in its queue. -/
def fielded (st : ChanState) (offset : Nat) (numbers : List Nat) : State :=
  act.modChan 0 fun c => { c with
    state := st, expected := 100, offset := offset, queue := numbers.map fun n => ⟨n, List.replicate 240 1⟩ }

/-- Witness of FieldFrames: frames at each distance from the frame due: 0, 7, 8, 32767 and 32768; the target fill of 3. -/
theorem witness_FieldFrames :
    (Sizes act ∧ act.li.lineState = .active ∧ act.cfg.station.fieldEnable = 1 ∧ (frame 100 1).good = true ∧ (frame 100 1).length = 965
        ∧ (frame 100 1).flags % 4 = 0 + 1 ∧ (frame 100 2).flags % 4 = 1 + 1 ∧ (frame 100 4).flags % 4 = 0)
      ∧ ((act.chan 0).state = .idle ∧ (fielded .lost 0 []).chan 0 = { (fielded .idle 0 []).chan 0 with state := .lost })
      ∧ ((100 + 65536 - 100) % 65536 = 0 ∧ (107 + 65536 - 100) % 65536 = 7 ∧ (108 + 65536 - 100) % 65536 = 8
        ∧ (32867 + 65536 - 100) % 65536 = 32767 ∧ (32868 + 65536 - 100) % 65536 = 32768)
      ∧ (((fielded .playing 4 [101]).chan 0).state = .playing ∧ 0 < ((fielded .playing 4 [101]).chan 0).offset)
      ∧ (∃ x ∈ ((fielded .filling 0 [100, 101]).chan 0).queue, x.number = 101)
      ∧ ¬(∃ x ∈ ((fielded .filling 0 [100, 101]).chan 0).queue, x.number = 102)
      ∧ act.cfg.station.targetFill ≤ ((fielded .filling 0 [100, 101]).chan 0).queue.length + 1
      ∧ ((fielded .filling 0 [100]).chan 0).queue.length + 1 < act.cfg.station.targetFill
      ∧ ((act.openTalkCfg 0).count ≠ 0 ∧ (act.openTalkCfg 1).count = 0)
      ∧ ((frame 100 3).flags % 4 = 3 ∧ (frame 100 3).good = true ∧ (frame 100 3).length = 965 ∧ Due.fieldLoss 1 ∉ act.owed)
      ∧ (at' .listening).li.lineState ≠ .active := by
  unfold Sizes
  and_intros <;> decide +kernel

/-- Channel A has heard nothing for 100 cycles, and the opening has left its loss to FIELD_LOSS. -/
def lossLeft (st : ChanState) : State := owing ((fielded st 0 [100]).modChan 0 fun c => { c with loss := 100 }) (.fieldLoss 0)

/-- Witness of FieldFrames' loss: in FILLING and in PLAYING. -/
theorem witness_FieldFrames_loss :
    Sizes (lossLeft .playing) ∧ Due.fieldLoss 0 ∈ (lossLeft .playing).owed ∧ 100 ≤ ((lossLeft .playing).chan 0).loss
      ∧ ((lossLeft .playing).chan 0).state = .playing ∧ ((lossLeft .filling).chan 0).state = .filling := by
  unfold Sizes; decide +kernel

/-- The loss comes before the frame, which then starts FILLING (R175, R176, log 4). -/
theorem test_loss_before_frame :
    (run (.fieldFrameArrival (frame 101 1)) (lossLeft .playing)).cp.events
        = [.fieldState 0 .playing .lost 100 .loss, .fieldState 0 .lost .filling 101 .firstFrame]
      ∧ (run (.fieldFrameArrival (frame 101 1)) (lossLeft .playing)).owed = [] := by decide +kernel

theorem test_field_frame_arrival :
    ((run (.fieldFrameArrival (frame 100 1)) act).chan 0).state = .filling
      ∧ (run (.fieldFrameArrival (frame 100 3)) act).cp.events
        = [.fieldState 0 .idle .filling 100 .firstFrame, .fieldState 1 .idle .filling 100 .firstFrame]
      ∧ ((run (.fieldFrameArrival (frame 102 1)) (fielded .filling 0 [100, 101])).chan 0).state = .playing
      ∧ ((run (.fieldFrameArrival (frame 99 1)) (fielded .playing 0 [100])).chan 0).late = 1
      ∧ ((run (.fieldFrameArrival (frame 100 1)) (fielded .playing 0 [100])).chan 0).duplicate = 1
      ∧ ((run (.fieldFrameArrival (frame 108 1)) (fielded .playing 0 [100])).chan 0).resync = true := by decide +kernel

theorem test_field_frame_sent :
    let f : OutFrame := ⟨3, true, false, [1], []⟩
    (run .fieldFrameSent (act.modFb fun b => { b with hold := some f })).fb.sending = some f
      ∧ (run .fieldFrameSent (act.modFb fun b => { b with hold := some f })).fb.hold = none := by decide +kernel

/-- Framing has this many blocks of channel B gathered, with frames on their way or not; F5 alone is a RETURN feed. -/
def framing (n : Nat) (sending hold : Option OutFrame) : State :=
  act.modFb fun b => { b with
    framing := true, frameNo := 65535, gatherPos := n, gatherB := List.replicate (48 * n) 1, sending := sending, hold := hold }

/-- Both RETURN feeds are in use. -/
def bothReturns (s : State) : State :=
  { s with cp := { s.cp with config := some { cfgT with feeds := feedsT.set 4 { FeedCfg.absent with type := 3 } } } }

/-- Witness of SamplesOutAndIn: full input runs; no framing; a position that does not complete; one of the first four, and the fifth with
no frame on its way, one, and two; and both channels from the start. -/
theorem witness_SamplesOutAndIn :
    (act.mx.localRun.length = 48 ∧ act.vd.micA.length = 48 ∧ act.vd.micB.length = 48 ∧ zeroBlock.length = 48)
      ∧ act.fb.framing = false
      ∧ ((act.feedCfg 4).type ≠ 3 ∧ (act.feedCfg 5).type = 3 ∧ ((framing 3 none none).fb.gatherB ++ zeroBlock).length = 48 * (3 + 1))
      ∧ ((framing 4 none none).fb.gatherPos = 4 ∧ (framing 4 none none).fb.sending = none)
      ∧ (let f : OutFrame := ⟨3, true, false, [1], []⟩
        (framing 4 (some f) none).fb.hold = none ∧ (framing 4 (some f) (some f)).fb.hold ≠ none ∧ (framing 4 (some f) (some f)).fb.sending ≠ none)
      ∧ (((bothReturns (framing 0 none none)).feedCfg 4).type = 3 ∧ ((bothReturns (framing 0 none none)).feedCfg 5).type = 3
        ∧ (bothReturns (framing 0 none none)).fb.gatherA = [] ∧ (bothReturns (framing 0 none none)).fb.gatherB = []) := by decide +kernel

/-- Frame 65535 goes out with the fifth block of F5, narrowed, and 240 zeros for channel A; the next is frame 0 (R180). -/
theorem test_framing :
    ((framing 4 none none).gather 1 (List.replicate 48 (-129))).fb.sending
        = some ⟨65535, false, true, List.replicate 240 0, List.replicate 192 1 ++ List.replicate 48 (-1)⟩
      ∧ ((framing 4 none none).gather 1 (List.replicate 48 (-129))).fb.frameNo = 0 := by decide +kernel

/-- Witness of MixOfAFeed: a station with entries, its feeds in order, and the ends of the feed numbers. -/
theorem witness_MixOfAFeed :
    (Sizes (cutIn [ent 6 2, ent 5 4] []) ∧ EntryLaw (cutIn [ent 6 2, ent 5 4] []) ∧ usedFeed (act.feedCfg 0) = true)
      ∧ 5 < 6 ∧ usedFeed (act.feedCfg 5) = true := by
  unfold Sizes EntryLaw feedOrdered
  and_intros <;> decide +kernel

/-- The local programme of F1 at unity from a first multiplier of 0: sample n of 1000 has the multiplier 16384 × (n + 1) / 48, so the first
term is (1000 × 341 + 8192) / 16384 = 21, and the last 1000; and a full-scale programme with the voice of an entry clips (R130, R140–R143). -/
theorem test_mix :
    let s := act.modMx fun m => { m with localBlock := List.replicate 48 1000 }
    let loud := (act.modMx fun m => { m with cycle := 8, localBlock := List.replicate 48 8388607 }).modMx fun m =>
      { m with store := m.store.set 2 (some ⟨{ quietSlot with quiet := false, samples := List.replicate 48 8388607 }, true, 7⟩) }
    let talk := loud.modFeed 1 fun f => { f with admitted := [{ ent 5 1 with voice := some 16384 }] }
    ((s.mixFeed 1).mix 1).playout.head? = some 21 ∧ ((s.mixFeed 1).mix 1).playout.getLast? = some 1000
      ∧ ((s.mixFeed 1).mix 1).prog = some 16384 ∧ ((s.mixFeed 1).mix 1).clip = false
      ∧ ((talk.mixFeed 1).mix 1).clip = true ∧ ((talk.mixFeed 1).mix 1).playout.getLast? = some 8388607 := by decide +kernel

theorem test_samples :
    (run .outputSampleDue (act.modMix 0 fun m => { m with playout := [5, 6] })).mx.outputs = [5, 0, 0, 0]
      ∧ ((run .outputSampleDue (act.modMix 0 fun m => { m with playout := [5, 6] })).mix 0).playout = [6]
      ∧ (run (.audioInputSampled 1 2 3) act).vd.micB.getLast? = some 3 := by decide +kernel

/-! ### Witnesses: the laws, and what stands beside the commands -/

/-- Witness of TablesAndOutputsKept, EventQueueLaw, QueueAndRequestLaws, LineStateMoves, LaneAndPresenceLaws, EntriesKeptInOrder,
ArbiterLawKept, MemoLawKept and ClocksAndFieldQueuesKept: an ACTIVE station with a lane, an OPEN path, an entry, a clock, a field queue and a waiting command. -/
def busy : State :=
  let s := ((mined (fielded .filling 0 [100, 103])).setPath 1 (some (pathT .opened))).setClock 0 (some ⟨5, 70, 0, 9, false, 9000⟩)
  { (s.modFeed 0 fun f => { f with stack := [entryT 2 [], { entryT 4 [] with source := 1 }] }) with pending := [.stop] }

theorem witness_laws :
    Sizes busy ∧ OutputLaw busy ∧ EventLaw busy ∧ QueueLaw busy ∧ RequestLaw busy ∧ QuietLaw busy ∧ LaneLaw busy ∧ PresenceLaw busy
      ∧ EntryLaw busy ∧ ArbiterLaw busy ∧ MemoLaw busy ∧ busy.cp.config ≠ none ∧ ClockLaw busy ∧ FieldLaw busy ∧ (∀ c ∈ busy.pending, lawful c = true) ∧ (∀ c ∈ busy.pending, c.wellFormed = true) := by
  unfold Sizes OutputLaw EventLaw QueueLaw RequestLaw QuietLaw LaneLaw PresenceLaw EntryLaw feedOrdered ArbiterLaw feedLawful entryInOrder
    feedFits heldInOrder MemoLaw channelLawful chainLawful memosInRange ClockLaw FieldLaw chanOrdered
  and_intros <;> decide +kernel

/-- The step from there answers a next state: the path closes, in LEAVING. -/
theorem witness_laws_step : ∃ t, step busy = .next t ∧ t.li.lineState = .leaving ∧ t.pending = [] :=
  ⟨run .stop { busy with pending := [] }, rfl, by decide +kernel, by decide +kernel⟩

/-- A queue of 30 entries, of 31, and of 31 that ends in an OVERFLOW (R199). -/
def events (n : Nat) : State := { act with cp := { act.cp with events := List.replicate n (.laneWait 0) } }

/-- Witness of EventQueueLaw's clauses. -/
theorem witness_EventQueueLaw :
    (events 30).cp.events.length ≤ 30 ∧ (events 31).cp.events.length = 31
      ∧ (events 31).cp.events.getLast?.any Event.isOverflow = false ∧ ((events 31).raise (.laneWait 1)).cp.events.length = 32
      ∧ ((events 31).raise (.laneWait 1)).cp.events = (events 31).cp.events ++ [.overflow 1]
      ∧ (((events 31).raise (.laneWait 1)).raise (.laneWait 2)).cp.events = (events 31).cp.events ++ [.overflow 2] := by decide +kernel

/-- Witness of LineStateMoves: STOP leads from LISTENING to OFFLINE, and is no HARDWARE_RESET. -/
theorem witness_LineStateMoves :
    exec .stop (at' .listening) = .next (run .stop (at' .listening)) ∧ (run .stop (at' .listening)).li.lineState = .offline
      ∧ (at' .listening).li.lineState ≠ .offline := ⟨rfl, by decide +kernel, by decide +kernel⟩

/-- Witness of FormatsRoundTrip: a message, a mark, a slot and a frame at the ends of their fields. -/
theorem witness_FormatsRoundTrip :
    (63 < 64 ∧ (Instr.talkOpenReceived ⟨true, true, 7 - (Message.talkOpen (openTo 7 true [255])).urgency, 63, 2, 36⟩ (openTo 7 true [255])).wellFormed = true)
      ∧ (63 < 64 ∧ 3 < 4)
      ∧ ({ quietSlot with samples := List.replicate 48 (-32768) }.wellFormed = true ∧ (List.replicate 48 (-32768 : Int)).all fits16 = true)
      ∧ (65535 < 65536 ∧ (List.replicate 240 (32767 : Int)).all fits16 = true ∧ (List.replicate 240 (32767 : Int)).length = 240) := by
  decide +kernel

/-- Witness of GainsAndRamps: the ends of the codes, and a target at one step, one beyond it, and below. -/
theorem witness_GainsAndRamps :
    (1 ≤ gain 1 ∧ gain 127 ≤ 65226) ∧ rampEnd 1 0 256 = 256 ∧ rampEnd 1 0 257 = 256 ∧ rampEnd 1 257 0 = 1 ∧ rampEnd 0 0 60000 = 60000
      ∧ rampAt 0 48 0 = 1 ∧ rampAt 0 48 47 = 48 ∧ rampAt 48 0 0 = 47 := by decide +kernel

/-- Witness of ConcealmentFades: no frame, another frame, and frame E at the last offset; a channel that plays. -/
theorem witness_ConcealmentFades :
    (∀ f ∈ ((fielded .playing 0 []).chan 0).queue.head?, f.number ≠ 100) ∧ (∀ f ∈ ((fielded .playing 0 [101]).chan 0).queue.head?, f.number ≠ 100)
      ∧ (((fielded .playing 4 [100]).chan 0).queue.map HeldFrame.number = [100] ∧ ((fielded .playing 4 [100]).chan 0).offset ≤ 4)
      ∧ zeroBlock.all fits16 = true ∧ Sizes (fielded .playing 0 []) ∧ ((fielded .playing 0 []).chan 0).plays = true
      ∧ (fielded .playing 0 []).li.lineState = .active := by
  unfold Sizes; decide +kernel

/-- Witness of VoiceDetectorRules: VOX off, a QUIET source at and below onset, a VOICE source at and below half of it (R151, R152). -/
theorem witness_VoiceDetectorRules :
    ((Vox.evaluated ⟨0, false, 0, []⟩ ⟨0, 0, 50⟩ [1]).voice = true)
      ∧ ((Vox.evaluated ⟨0, false, 0, []⟩ ⟨1, 0, 50⟩ [-16384]).voice = true ∧ (Vox.evaluated ⟨0, false, 0, []⟩ ⟨1, 0, 50⟩ [16383]).voice = false)
      ∧ ((Vox.evaluated ⟨0, true, 49, []⟩ ⟨1, 0, 50⟩ [8191]).hang = 50 ∧ (Vox.evaluated ⟨0, true, 49, []⟩ ⟨1, 0, 50⟩ [8192]).hang = 0)
      ∧ (Vox.evaluated ⟨160, false, 0, []⟩ ⟨1, 0, 50⟩ [0]).envelope = 150 := by decide +kernel

/-- Witness of InaudibleEntriesUnheard: F0 is a CUT-IN feed whose stack has a top over another, and F1 a MIX feed that is exclusive. -/
theorem witness_InaudibleEntriesUnheard :
    (mixingFeed (act.feedCfg 1) = true ∧ ((mixes [ent 6 3, ent 5 7] []).feed 1).exclusive = true
        ∧ ([ent 5 7, ent 7 1].filter fun e => e.level == 7) = ((mixes [ent 6 3, ent 5 7] []).feed 1).admitted.filter fun e => e.level == 7)
      ∧
    mixingFeed (busy.feedCfg 0) = false ∧ (busy.feed 0).stack = [entryT 2 []] ++ [{ entryT 4 [] with source := 1 }] := by decide +kernel

/-- HARDWARE_RESET reads the straps (R186). -/
theorem test_hardware_reset :
    (run (.hardwareReset 62 2) act).li.strapNumber = 62 ∧ (run (.hardwareReset 62 2) act).plt.lanes.length = 24
      ∧ (run (.hardwareReset 62 2) act).cp.config = none := by decide +kernel

end Sys2Proof.Tests
end

/-! PROOFS. Chapter 1, the talk line. -/

namespace Sys2Proof.Machine

variable {s : State} {m : HeardMark} {apart : List DueKind} {i : Nat}

/-! ### Entry to MISMATCH or SILENCED (R14) -/

theorem State.enterDead_key (st : LineState) (d : Nat) (h : i < s.ku.keys.length) :
    (s.enterDead st d).key i = (s.key i).left := by
  simp [State.enterDead, State.key, State.raise, h]

theorem State.enterDead_feed (st : LineState) (d : Nat) (h : i < s.cia.feeds.length) :
    (s.enterDead st d).feed i = { Feed.rest with reply := (s.feed i).reply } := by
  simp [State.enterDead, State.feed, State.raise, h]

theorem State.enterDead_chan (st : LineState) (d : Nat) (h : i < s.fb.chans.length) :
    (s.enterDead st d).chan i = (s.chan i).idled := by
  simp [State.enterDead, State.chan, State.raise, h]

/-- The entry leaves what R14 says in every block. -/
theorem State.enterDead_diesTo (s : State) (st : LineState) (d : Nat) : s.diesTo (s.enterDead st d) st d :=
  ⟨rfl, rfl, fun _ hk => enterDead_key st d hk, rfl, fun _ hi => enterDead_feed st d hi, rfl, rfl, rfl, rfl, rfl,
    fun _ hc => enterDead_chan st d hc, rfl, rfl, rfl⟩

/-- Mark duty, dropped for a mark heard (R5), leaves no trace in the entry, which drops it too. -/
@[simp] theorem State.enterDead_dropDuty (s : State) (st : LineState) (d : Nat) :
    (s.modLi LineIf.dropDuty).enterDead st d = s.enterDead st d := rfl

/-! ### Heard marks (R12, R13, R208) -/

theorem State.hears_iff : s.hears = true ↔ s.li.lineState = .listening ∨ s.li.lineState = .active := by
  simp [State.hears, State.listening, State.active]

theorem goodMark_iff : goodMark m = true ↔ m.good = true ∧ 1 ≤ m.number ∧ m.number ≤ 62 := by
  simp [goodMark, badStation, Nat.one_le_iff_ne_zero]

theorem exec_markReceived (m : HeardMark) (apart : List DueKind) (s : State) :
    exec (.markReceived m apart) s = .next (s.markHeard m apart) := rfl

/-- The test of R12 is the first of the tests on a good mark: whose number the mark bears makes no difference. -/
theorem State.goodMarkHeard_of_org_ne (h : m.org ≠ s.li.strapOrg) : s.goodMarkHeard m apart = s.enterDead .mismatch m.org :=
  if_pos h

/-- A good mark of another organisation does the entry to MISMATCH and no more, whether or not the station drops mark duty for it. -/
theorem State.markHeard_of_org_ne (hears : s.hears = true) (good : goodMark m = true) (org : m.org ≠ s.li.strapOrg) :
    s.markHeard m apart = s.enterDead .mismatch m.org := by
  unfold State.markHeard
  rw [if_pos hears, if_pos good]
  split
  · have org' : m.org ≠ (s.modLi LineIf.dropDuty).li.strapOrg := org
    rw [goodMarkHeard_of_org_ne org', enterDead_dropDuty]
  · exact goodMarkHeard_of_org_ne org

/-- Settles O19: the organisation is tested before the number, so the mark does the entry to MISMATCH alone. -/
theorem mismatchBeforeSilenced : Obligations.MismatchBeforeSilenced := by
  intro s m apart state good low high org
  have heard : s.markHeard m apart = s.enterDead .mismatch m.org :=
    State.markHeard_of_org_ne (State.hears_iff.mpr state) (goodMark_iff.mpr ⟨good, low, high⟩) org
  exact ⟨s.enterDead .mismatch m.org, by rw [exec_markReceived, heard], s.enterDead_diesTo .mismatch m.org⟩

end Sys2Proof.Machine

/-! PROOFS. Chapter 4, talk requests. -/

namespace Sys2Proof.Machine

variable {s : State} {env : Envelope} {m : Message} {n k station feed caller : Nat} {c : CallOrigin}

/-! ### A good message of a PRESENT peer (R9, R22) -/

/-- Two changes that agree on the entry of a station change the table alike. -/
theorem State.modPeer_congr {f g : Peer → Peer} (agree : f (s.peer n) = g (s.peer n)) : s.modPeer n f = s.modPeer n g := by
  have entries : s.plt.peers.modify (n - 1) f = s.plt.peers.modify (n - 1) g := by
    rw [List.modify_eq_set_getElem?, List.modify_eq_set_getElem?]
    cases entry : s.plt.peers[n - 1]? with
    | none => rfl
    | some p =>
      have read : s.peer n = p := by simp [State.peer, entry]
      rw [read] at agree
      simp [agree]
  simp [State.modPeer, entries]

/-- The state in which station `n` has just been heard: what the refresh of R22 makes of an entry that is PRESENT. -/
def State.renewed (s : State) (n : Nat) : State := s.modPeer n fun p => { p with age := 0 }

theorem State.refreshPeer_of_present (other : n ≠ s.number) (present : (s.peer n).present = true) :
    s.refreshPeer n = s.renewed n := by
  have kept : s.refreshPeer n = s.modPeer n Peer.heard := by simp [State.refreshPeer, other, present]
  rw [kept]
  exact modPeer_congr (if_pos present)

/-- In ACTIVE a good, well-formed message of another station refreshes the sender's entry and is handed on. -/
theorem State.hear_of_active (refresh listen act : State → State) (state : s.li.lineState = .active)
    (good : env.good = true) (other : env.sender ≠ s.number) (fit : malformed s.laneCount env m = false) :
    s.hear env m refresh listen act = act (listen (refresh s)) := by
  have active : s.active = true := beq_iff_eq.mpr state
  simp [State.hear, State.hears, active, good, other, fit]

/-! ### CALL-ACK (R74) -/

/-- The refresh of a peer leaves the call-origination records. -/
@[simp] theorem State.renewed_callOrigin : (s.renewed n).callOrigin k = s.callOrigin k := rfl

theorem State.ackHeard_of_none (record : s.callOrigin k = none) : s.ackHeard k station feed = s := by
  simp [State.ackHeard, record]

theorem State.ackHeard_of_idle (record : s.callOrigin k = some c) (idle : c.state = .idle) :
    s.ackHeard k station feed = s := by
  simp [State.ackHeard, record, idle]

theorem State.ackHeard_of_queued (record : s.callOrigin k = some c) (queued : c.state = .queued) :
    s.ackHeard k station feed = s.raise (.callAcked k station feed) := by
  simp [State.ackHeard, record, queued]

theorem State.ackHeard_of_sent_or_acked (record : s.callOrigin k = some c) (sent : c.state = .sent ∨ c.state = .acked) :
    s.ackHeard k station feed = (s.setCall k { c with state := .acked }).raise (.callAcked k station feed) := by
  rcases sent with sent | sent <;> simp [State.ackHeard, record, sent]

/-- A good CALL-ACK of a PRESENT peer refreshes the peer's entry, and acknowledges a call of this station alone. -/
theorem exec_callAckReceived_of_present (state : s.li.lineState = .active) (good : env.good = true)
    (other : env.sender ≠ s.number) (present : (s.peer env.sender).present = true)
    (fit : malformed s.laneCount env (.callAck caller feed k) = false) :
    exec (.callAckReceived env caller feed k) s = .next
      (if caller = s.number then (s.renewed env.sender).ackHeard k env.sender feed else s.renewed env.sender) := by
  have handed := State.hear_of_active (fun s => s.refreshPeer env.sender) id
    (fun s => if caller = s.number then s.ackHeard k env.sender feed else s) state good other fit
  rw [State.refreshPeer_of_present other present] at handed
  exact congrArg Host.Outcome.next handed

/-- Settles O34: the refresh of the sender touches no call record, so the record before the CALL-ACK decides, state by state. -/
theorem callAckHeard : Obligations.CallAckHeard := by
  intro s env caller feed key state good other present fit refreshed told
  rw [exec_callAckReceived_of_present state good other present fit]
  have same := State.renewed_callOrigin (s := s) (n := env.sender) (k := key)
  refine ⟨fun unmoved => ?_, fun r mine record => ⟨fun sent => ?_, fun queued => ?_⟩⟩
  · rcases unmoved with elsewhere | absent | ⟨r, record, idle⟩
    · rw [if_neg elsewhere]; rfl
    · rw [State.ackHeard_of_none (same.trans absent), ite_self]; rfl
    · rw [State.ackHeard_of_idle (same.trans record) idle, ite_self]; rfl
  · rw [if_pos mine, State.ackHeard_of_sent_or_acked (same.trans record) sent]; rfl
  · rw [if_pos mine, State.ackHeard_of_queued (same.trans record) queued]; rfl

end Sys2Proof.Machine

/-! PROOFS. Chapter 9, the field bridge. -/

namespace Sys2Proof.Machine

variable {s t : State} {ch : Chan} {f : HeldFrame} {rest : List HeldFrame} {b : Block} {x : Sample} {c n : Nat}

/-! ### Concealed blocks (R174) -/

theorem natAbs_tdiv_two_lt (small : x.natAbs < 2 ^ (n + 1)) : (x.tdiv 2).natAbs < 2 ^ n := by
  have halved : (x.tdiv 2).natAbs = x.natAbs / 2 := Int.natAbs_tdiv x 2
  omega

/-- A concealed block halves every magnitude, so one bit fewer is left at each step of a run, and no sample outlives its bits. -/
theorem conceal_iterate_eq_zeros (small : ∀ x ∈ b, x.natAbs < 2 ^ n) : conceal^[n] b = b.map fun _ => 0 := by
  induction n generalizing b with
  | zero =>
    have zeros : ∀ x ∈ b, x = 0 := fun x hx => by simpa using small x hx
    exact (List.map_id b).symm.trans (List.map_congr_left zeros)
  | succ n ih =>
    have halved : ∀ y ∈ conceal b, y.natAbs < 2 ^ n := by
      intro y hy
      obtain ⟨x, hx, rfl⟩ := List.mem_map.mp hy
      exact natAbs_tdiv_two_lt (small x hx)
    calc conceal^[n + 1] b = conceal^[n] (conceal b) := Function.iterate_succ_apply conceal n b
      _ = (conceal b).map fun _ => 0 := ih halved
      _ = b.map fun _ => 0 := List.map_map

/-- The magnitude of a 16-bit sample has at most sixteen bits, and the sixteenth in -32768 alone. -/
theorem natAbs_lt_of_fits16 {x : Int} (fit : fits16 x = true) :
    x.natAbs < 2 ^ 16 ∧ (0 ≤ x → x.natAbs < 2 ^ 15) := by
  have range : -32768 ≤ x ∧ x ≤ 32767 := of_decide_eq_true fit
  omega

theorem conceal_iterate_of_fits16 (fit : b.all fits16 = true) :
    conceal^[16] b = b.map (fun _ => 0) ∧ ((∀ x ∈ b, 0 ≤ x) → conceal^[15] b = b.map fun _ => 0) := by
  have bits : ∀ x ∈ b, x.natAbs < 2 ^ 16 ∧ (0 ≤ x → x.natAbs < 2 ^ 15) :=
    fun x hx => natAbs_lt_of_fits16 (List.all_eq_true.mp fit x hx)
  exact ⟨conceal_iterate_eq_zeros fun x hx => (bits x hx).1,
    fun nonneg => conceal_iterate_eq_zeros fun x hx => (bits x hx).2 (nonneg x hx)⟩

/-! ### The playout step (R173) -/

@[simp] theorem Chan.played_last : ch.played.last = ch.produced := rfl

theorem Chan.produced_of_missing (missing : ∀ f ∈ ch.queue.head?, f.number ≠ ch.expected) :
    ch.produced = conceal ch.last := by
  unfold Chan.produced
  split
  next f head => exact if_neg (missing f head)
  next => rfl

theorem Chan.produced_of_head (queue : ch.queue = f :: rest) (number : f.number = ch.expected) :
    ch.produced = toBlock ((f.samples.drop (48 * ch.offset)).take 48) := by
  simp [Chan.produced, queue, number]

/-- A block of 48 samples is neither cut nor continued with zeros. -/
theorem toBlock_of_length (block : b.length = 48) : toBlock b = b := List.take_left' block

theorem length_frame_part (frame : f.samples.length = 240) (offset : n ≤ 4) :
    ((f.samples.drop (48 * n)).take 48).length = 48 := by
  rw [List.length_take, List.length_drop, frame]
  omega

/-! ### Entry to PLAYING (R172) -/

theorem State.changesOnly.chan_eq {l : List Piece} (h : s.changesOnly t l) (apart : .fb ∉ l := by decide) :
    t.chan c = s.chan c :=
  congrArg (fun fb : Fb => fb.chans.getD c Chan.rest) (h.2 .fb apart)

theorem State.modChan_chan (g : Chan → Chan) (inside : c < s.fb.chans.length) : (s.modChan c g).chan c = g (s.chan c) := by
  simp [State.chan, State.modChan_fb, inside]

/-- A change that keeps every channel's last block keeps this one's, whether or not there is a channel `c`. -/
theorem State.modChan_chan_last {g : Chan → Chan} (keeps : ∀ ch, (g ch).last = ch.last) :
    ((s.modChan c g).chan c).last = (s.chan c).last := by
  unfold State.chan
  rw [State.modChan_fb, getD_modify]
  split
  · exact keeps _
  · rfl

/-- What follows the change to PLAYING, the event, the need and the open, leaves the zeros that it writes. -/
theorem State.fill_chan_last (inside : c < s.fb.chans.length) : ((s.fill c).chan c).last = zeroBlock := by
  unfold State.fill
  dsimp only
  generalize entered : s.modChan c (fun ch =>
    { ch with state := .playing, offset := 0, last := zeroBlock, resync := false }) = s1
  have zeros : (s1.chan c).last = zeroBlock := by rw [← entered, modChan_chan _ inside]
  have noted : (((s1.fieldEvent c (s.chan c).state .filled).writeFieldNeed c).chan c).last = zeroBlock := by
    rw [writeFieldNeed_changes.chan_eq, fieldEvent_changes.chan_eq, zeros]
  split
  · rw [openPath_changes.chan_eq, modChan_chan_last, noted]
    exact fun _ => rfl
  · exact noted

/-! ### What the detector is handed (R150, R173) -/

theorem State.fieldBlock_of_plays (state : s.li.lineState = .active) (plays : (s.chan c).plays = true) :
    s.fieldBlock c = (s.chan c).last.map widen := by
  have active : s.active = true := beq_iff_eq.mpr state
  simp [State.fieldBlock, active, plays]

theorem Sizes.chans_length (sizes : Sizes s) : s.fb.chans.length = 2 := by
  obtain ⟨-, -, -, -, -, -, -, -, -, -, -, -, -, -, -, chans⟩ := sizes
  exact chans

/-- Settles O58: a playout step without frame E conceals, each concealed block takes one bit from every sample, and a channel enters
PLAYING with zeros. -/
theorem concealmentFades : Obligations.ConcealmentFades := by
  refine ⟨fun ch missing => ?_, fun ch f rest queue number frame offset => ?_, by decide,
    fun b fit => conceal_iterate_of_fits16 fit, by decide, by decide, fun s c sizes inside => ⟨?_, fun state plays => ?_⟩⟩
  · exact Chan.produced_of_missing missing
  · rw [Chan.played_last, Chan.produced_of_head queue number]
    exact toBlock_of_length (length_frame_part frame offset)
  · exact State.fill_chan_last (sizes.chans_length ▸ inside)
  · exact State.fieldBlock_of_plays state plays

end Sys2Proof.Machine

/-! PROOFS. Chapter 10, the control port and start-up: what every operation does to the event queue (R199). An operation tells events and
enters no OFFLINE, or ends in OFFLINE; the lemma of an operation follows from those of the operations it calls. -/

namespace Sys2Proof.Machine

-- One proof after another, as in the frame lemmas that these follow: a thread for each would reserve more memory than a build has.
set_option Elab.async false

/-! ### An arriving event (R199) -/

/-- What the law asks of the queue alone. -/
def EventsFit (q : List Event) : Prop := q.length ≤ 32 ∧ (q.length = 32 → q.getLast?.any Event.isOverflow = true)

theorem eventLaw_iff {s : State} : EventLaw s ↔ EventsFit s.cp.events := Iff.rfl

theorem eventsFit_of_lt {q : List Event} (short : q.length < 32) : EventsFit q := ⟨short.le, fun full => absurd full short.ne⟩

theorem eventsFit_concat_overflow {q : List Event} {n : Nat} (room : q.length < 32) : EventsFit (q ++ [.overflow n]) :=
  ⟨by simpa using room, fun _ => by simp [Event.isOverflow]⟩

theorem EventsFit.appendEvent {q : List Event} (fits : EventsFit q) (e : Event) : EventsFit (appendEvent q e) := by
  rcases appendEvent_cases q e with ⟨room, arrived⟩ | ⟨-, n, -, counted⟩ | ⟨last, replaced⟩ | ⟨-, unchanged⟩
  · rw [arrived]
    exact eventsFit_of_lt (by rw [List.length_append, List.length_singleton]; omega)
  · rw [counted]
    exact eventsFit_concat_overflow (by have := fits.1; rw [List.length_dropLast]; omega)
  · rw [replaced]
    exact eventsFit_concat_overflow (by omega)
  · rwa [unchanged]

theorem EventsFit.tail {q : List Event} (fits : EventsFit q) : EventsFit q.tail :=
  eventsFit_of_lt (by have := fits.1; rw [List.length_tail]; omega)

theorem appendEvent_of_room {q : List Event} (e : Event) (room : q.length ≤ 30) : appendEvent q e = q ++ [e] := by
  unfold appendEvent eventPlaces
  exact if_pos (by omega)

theorem appendEvent_of_overflow {q : List Event} (e : Event) (n : Nat) (full : 31 ≤ (q ++ [Event.overflow n]).length) :
    appendEvent (q ++ [.overflow n]) e = q ++ [.overflow (bump n)] := by
  unfold appendEvent eventPlaces
  rw [if_neg (by omega)]
  simp

theorem appendEvent_of_last_place {q : List Event} (e : Event) (last : q.length = 31)
    (plain : q.getLast?.any Event.isOverflow = false) : appendEvent q e = q ++ [.overflow 1] := by
  rcases appendEvent_cases q e with ⟨room, -⟩ | ⟨-, n, counted, -⟩ | ⟨-, replaced⟩ | ⟨full, -⟩
  · omega
  · simp [counted, Event.isOverflow] at plain
  · exact replaced
  · omega

/-! ### Telling events -/

/-- `t` comes after `s` by events that arrive one after another, and by no entry to OFFLINE. -/
def State.tells (s t : State) : Prop :=
  (t.li.lineState = .offline → s.li.lineState = .offline) ∧ ∃ es : List Event, t.cp.events = es.foldl appendEvent s.cp.events

theorem State.tells.eventLaw {s t : State} (h : s.tells t) (law : EventLaw s) : EventLaw t := by
  obtain ⟨-, es, told⟩ := h
  rw [eventLaw_iff, told]
  exact foldl_keeps EventsFit appendEvent (fun _ e fits => fits.appendEvent e) es _ law

theorem State.tells.refl {s : State} : s.tells s := ⟨id, [], rfl⟩

theorem State.tells.then {s t u : State} (h : s.tells t) (h' : t.tells u) : s.tells u := by
  obtain ⟨online, es, told⟩ := h
  obtain ⟨online', es', told'⟩ := h'
  exact ⟨online ∘ online', es ++ es', by rw [told', told, List.foldl_append]⟩

theorem State.tells.fold {α : Type} {f : State → α → State} (h : ∀ (s : State) (a : α), s.tells (f s a)) {s t : State}
    (hs : s.tells t) (as : List α) : s.tells (as.foldl f t) :=
  foldl_keeps s.tells f (fun _ a hb => hb.then (h _ a)) as t hs

theorem State.tells.ite {s t u : State} {c : Prop} [Decidable c] (h : s.tells t) (h' : s.tells u) : s.tells (if c then t else u) := by
  split <;> assumption

/-- A further change where a condition holds. -/
theorem State.tells.thenIf {s t u : State} {c : Prop} [Decidable c] (h : s.tells t) (h' : t.tells u) : s.tells (if c then u else t) :=
  .ite (h.then h') h

/-- What leaves the line interface and the control port tells nothing. -/
theorem State.changesOnly.tells {s t : State} {l : List Piece} (h : s.changesOnly t l) (line : .li ∉ l := by decide)
    (port : .cp ∉ l := by decide) : s.tells t := by
  have li : t.li = s.li := h.2 .li line
  have cp : t.cp = s.cp := h.2 .cp port
  exact ⟨fun offline => li ▸ offline, [], by rw [cp]; rfl⟩

section
variable {s : State} {n i t src : Nat} {e : Entry} {b : Bool}

/-! ### Writers -/

theorem modLi_tells {f : LineIf → LineIf} (online : (f s.li).lineState = .offline → s.li.lineState = .offline := by simp) :
    s.tells (s.modLi f) := ⟨online, [], rfl⟩

theorem modCp_tells {f : Cp → Cp} (events : (f s.cp).events = s.cp.events := by exact rfl) : s.tells (s.modCp f) :=
  ⟨id, [], events⟩

theorem raise_tells {e : Event} : s.tells (s.raise e) := ⟨id, [e], rfl⟩

theorem respond_tells {r : Response} : s.tells (s.respond r) := modCp_tells

theorem passTo_tells : s.tells (s.passTo n) := modLi_tells

theorem withdraw_tells {p : Message → Bool} {w : Withdrawal} : s.tells (s.withdraw p w) := modLi_tells

theorem offer_tells {m : Message} : s.tells (s.offer m) := .ite modLi_tells .refl

/-! ### The peer and lane table -/

theorem pick_tells : s.tells (s.pick n) := by
  unfold State.pick
  split
  · exact modSource_changes.tells.then offer_tells
  · exact .ite .refl (modSource_changes.tells.then raise_tells)

theorem serveWaiting_tells : s.tells (s.serveWaiting n) := .ite pick_tells .refl

theorem laneFreed_tells : s.tells s.laneFreed := .ite (.fold (fun _ _ => serveWaiting_tells) .refl _) .refl

theorem repick_tells {l : Nat} : s.tells (s.repick n l) := .ite (.ite withdraw_tells (withdraw_tells.then pick_tells)) .refl

theorem pickLost_tells : s.tells (s.pickLost n) := .fold (fun _ _ => repick_tells) .refl _

theorem headerHeard_tells {l x p : Nat} : s.tells (s.headerHeard l x n p) := by
  unfold State.headerHeard
  split
  · exact setLane_changes.tells.then pickLost_tells
  · exact setLane_changes.tells
  · exact setLane_changes.tells.then pick_tells
  · exact .refl

theorem claimHeard_tells {t l : Nat} : s.tells (s.claimHeard t l n) := by
  unfold State.claimHeard
  split
  · exact setLane_changes.tells.then pickLost_tells
  · exact .ite (.ite setLane_changes.tells .refl)
      (.ite setLane_changes.tells (.ite setLane_changes.tells .refl))
  · exact .ite (setLane_changes.tells.then pick_tells) .refl
  · exact .refl

theorem claimSent_tells {l : Nat} {d : Option Withdrawal} : s.tells (s.claimSent n l d) :=
  .ite .refl (.ite (.ite (setLane_changes.tells.then laneFreed_tells) .refl)
    (.ite (.ite (setLane_changes.tells.then modSource_changes.tells) pick_tells) .refl))

theorem setNeed_tells : s.tells (s.setNeed n) := .ite .refl (.ite (modSource_changes.tells.then pick_tells) modSource_changes.tells)

theorem clearNeed_tells : s.tells (s.clearNeed n) := by
  unfold State.clearNeed
  have h : s.tells (s.modSource n fun _ => ⟨false, .idle, false⟩) := modSource_changes.tells
  refine .ite ?_ .refl
  dsimp only
  split
  · exact h
  · exact h
  · exact (h.then withdraw_tells).then laneFreed_tells
  · exact (h.then setLane_changes.tells).then laneFreed_tells
  · exact (h.then setLane_changes.tells).then laneFreed_tells

theorem writeNeed_tells {b : Bool} : s.tells (s.writeNeed n b) := .ite setNeed_tells clearNeed_tells

theorem refreshPeer_tells : s.tells (s.refreshPeer n) := .ite .refl (.ite (modPeer_changes.tells.then raise_tells) modPeer_changes.tells)

theorem refreshWinner_tells : s.tells (s.refreshWinner n) := .ite .refl refreshPeer_tells

theorem freeLanesOf_tells : s.tells (s.freeLanesOf n) := by
  unfold State.freeLanesOf
  exact .then ⟨id, [], rfl⟩ laneFreed_tells

/-! ### Talk requests -/

theorem prepare_tells {r : OpenReq} : s.tells (s.prepare n r) := .ite (setPath_changes.tells.then setNeed_tells) setPath_changes.tells

theorem offerPath_tells : s.tells (s.offerPath n) := by
  unfold State.offerPath
  split
  · split
    · exact .ite (.ite ((setPath_changes.tells.then modTru_changes.tells).then offer_tells)
        setPath_changes.tells) .refl
    · exact .refl
  · exact .refl

theorem offeringPass_tells : s.tells s.offeringPass := .ite (.fold (fun _ _ => offerPath_tells) .refl _) .refl

theorem endNeed_tells : s.tells (s.endNeed n) := .ite clearNeed_tells .refl

theorem openPath_tells {r : OpenReq} : s.tells (s.openPath n r) := by
  unfold State.openPath
  refine .ite ?_ .refl
  split
  · exact prepare_tells.then offerPath_tells
  · exact .ite setPath_changes.tells .refl

theorem freePath_tells : s.tells (s.freePath n) := by
  unfold State.freePath
  split
  · exact setPath_changes.tells.then endNeed_tells
  · exact .refl

theorem closeOpened_tells {p : Path} : s.tells (s.closeOpened n p) :=
  .ite (withdraw_tells.then setPath_changes.tells) ((withdraw_tells.then setPath_changes.tells).then offer_tells)

theorem retryClose_tells : s.tells (s.retryClose n) := by
  unfold State.retryClose
  split
  · exact .ite (setPath_changes.tells.then offer_tells) .refl
  · exact .refl

theorem closePath_tells : s.tells (s.closePath n) := by
  unfold State.closePath
  split
  · exact .refl
  · split
    · exact freePath_tells
    · exact .ite withdraw_tells
        (withdraw_tells.then freePath_tells)
    · exact closeOpened_tells
    · exact setPath_changes.tells

theorem closeSent_tells : s.tells (s.closeSent n) := by
  unfold State.closeSent
  split
  · refine .ite ?_ .refl
    dsimp only
    split
    · exact (((modTru_changes.tells.then setPath_changes.tells).then prepare_tells).then endNeed_tells).then
        offeringPass_tells
    · exact (modTru_changes.tells.then setPath_changes.tells).then endNeed_tells
  · exact .refl

theorem retire_tells : s.tells s.retire := by
  unfold State.retire
  split
  · exact .ite ((modTru_changes.tells.then raise_tells).then offeringPass_tells) .refl
  · exact .refl

theorem answerItem_tells {g : Nat} {i : Item} : s.tells (s.answerItem g n i) := by
  unfold State.answerItem
  dsimp only
  split
  · exact .ite (.ite ((modTru_changes.tells.then setPath_changes.tells).then raise_tells)
      (modTru_changes.tells.then setPath_changes.tells)) modTru_changes.tells
  · exact modTru_changes.tells

theorem answerHeard_tells {l g : Nat} {is : List WireItem} : s.tells (s.answerHeard l g n is) :=
  .fold (fun _ _ => answerItem_tells) .refl _

theorem noticeTag_tells {l f src g : Nat} {st : ItemState} {rs : Reason} :
    s.tells (s.noticeTag l f src st rs g) := by
  unfold State.noticeTag
  dsimp only
  split
  · split
    · exact .ite (.ite ((setPath_changes.tells.then modTru_changes.tells).then raise_tells)
        (setPath_changes.tells.then modTru_changes.tells)) .refl
    · exact .refl
  · exact .refl

theorem noticeHeard_tells {l f src : Nat} {st : ItemState} {rs : Reason} : s.tells (s.noticeHeard l f src st rs) :=
  .fold (fun _ _ => noticeTag_tells) .refl _

theorem offerMove_tells {l : Nat} : s.tells (s.offerMove n l) := markMove_changes.tells.then offer_tells

theorem handOver_tells {l : Nat} {b : Bool} : s.tells (s.handOver n l b) :=
  .ite .refl ((State.tells.ite offerMove_tells .refl).then offeringPass_tells)

theorem unissue_tells {g : Nat} : s.tells (State.unissue n s g) := by
  unfold State.unissue
  split
  · exact .ite (.ite withdraw_tells
      (withdraw_tells.then setPath_changes.tells)) .refl
  · exact .refl

theorem laneLost_tells : s.tells (s.laneLost n) := .fold (fun _ _ => unissue_tells) withdraw_tells _

theorem reannounce_tells : s.tells (s.reannounce n) := by
  unfold State.reannounce
  split
  · split
    · exact setPath_changes.tells.then offer_tells
    · exact .refl
  · exact .refl

theorem announceTally_tells : s.tells (s.announceTally n) := .ite (modTru_changes.tells.then offer_tells) .refl

theorem reannounceAll_tells : s.tells s.reannounceAll :=
  .fold (fun _ _ => announceTally_tells) (.fold (fun _ _ => .ite .refl reannounce_tells) .refl _) _

theorem placeCall_tells : s.tells (s.placeCall n) := by
  unfold State.placeCall
  split
  · exact setCall_changes.tells.then offer_tells
  · exact .refl

theorem ackHeard_tells {st f : Nat} : s.tells (s.ackHeard n st f) := by
  unfold State.ackHeard
  split
  · split
    · exact .refl
    · exact raise_tells
    · exact setCall_changes.tells.then raise_tells
    · exact setCall_changes.tells.then raise_tells
  · exact .refl

/-! ### Memo -/

theorem requestMemo_tells {i t : Nat} : s.tells (s.requestMemo i t n) := by
  unfold State.requestMemo
  split
  · refine .ite ?_ .refl
    split
    · exact modChannel_changes.tells.then modEntry_changes.tells
    · exact raise_tells
  · exact .refl

theorem discard_tells {e : Entry} {c : Option Reason} : s.tells (s.discard n e c) := by
  unfold State.discard
  dsimp only
  split
  · exact .ite freeChain_changes.tells (freeChain_changes.tells.then raise_tells)
  · exact freeChain_changes.tells

theorem storeBlock_tells {i t : Nat} {c : List Nat} {b : Block} : s.tells (s.storeBlock i t n c b) := by
  unfold State.storeBlock
  split
  · exact .ite modChannel_changes.tells
      (.ite (modChannel_changes.tells.then modEntry_changes.tells)
        (.ite modChannel_changes.tells (modChannel_changes.tells.then raise_tells)))
  · exact .refl

theorem captureFeed_tells {l : Nat} {t : Slot} : s.tells (s.captureFeed l t n) := by
  unfold State.captureFeed
  split
  · exact .ite (storeBlock_tells.then sync_changes.tells) .refl
  · exact .refl

theorem capture_tells {l : Nat} {b : Bool} {t : Slot} : s.tells (s.capture l b t) :=
  .ite (.fold (fun _ _ => captureFeed_tells) .refl _) .refl

/-! ### Tones and clocks -/

theorem cueFeed_tells {o d x m : Nat} : s.tells (s.cueFeed o d x m n) := by
  unfold State.cueFeed
  dsimp only
  split
  · exact setClock_changes.tells
  · split
    · exact setClock_changes.tells
    · exact raise_tells

theorem cueTaken_tells {o d x m : Nat} : s.tells (s.cueTaken o d x m) := .fold (fun _ _ => .ite cueFeed_tells .refl) .refl _

theorem cueZero_tells : s.tells (s.cueZero n) := by
  unfold State.cueZero
  split
  · exact .ite (.ite setClock_changes.tells
      (setClock_changes.tells.then raise_tells)) .refl
  · exact .refl

/-! ### Places -/

theorem notify_tells {st : ItemState} {r : Reason} : s.tells (s.notify i e st r) := .ite .refl offer_tells

theorem notifyUnless_tells {st : ItemState} {r : Reason} : s.tells (s.notifyUnless b i e st r) := .ite .refl notify_tells

theorem insertHeld_tells {q : Bool} : s.tells (s.insertHeld i e b q) := by
  unfold State.insertHeld
  dsimp only
  split
  · exact (modFeed_changes.tells.thenIf notifyUnless_tells).thenIf requestMemo_tells
  · exact .ite ((modFeed_changes.tells.then discard_tells).then notifyUnless_tells)
      (((modFeed_changes.tells.thenIf notifyUnless_tells).then discard_tells).then notify_tells |>.thenIf requestMemo_tells)

theorem setBack_tells : s.tells (s.setBack i e b) := insertHeld_tells

theorem promotionCheck_tells : s.tells (s.promotionCheck i) := by
  unfold State.promotionCheck
  dsimp only
  split
  · exact .ite ((modFeed_changes.tells.then push_changes.tells).then notify_tells) .refl
  · exact .refl

theorem admitSeven_tells {own : Option (Nat × Nat)} : s.tells (s.admitSeven i e own) := by
  unfold State.admitSeven
  dsimp only
  split
  · exact enterAdmitted_changes.tells
  · exact (modFeed_changes.tells.then setBack_tells).then enterAdmitted_changes.tells

theorem refillLoop_tells {own : Option (Nat × Nat)} :
    ∀ (n : Nat) {s : State}, s.tells (s.refillLoop n i own)
  | 0, s => .refl
  | n + 1, s => by
    unfold State.refillLoop
    dsimp only
    split
    · refine .ite .refl (.ite ?_ (.ite ?_ .refl))
      · exact (modFeed_changes.tells.then admitSeven_tells).then notify_tells
      · exact ((modFeed_changes.tells.then enterAdmitted_changes.tells).then notify_tells).then
          (refillLoop_tells n)
    · exact .refl

theorem refillBut_tells {own : Option (Nat × Nat)} : s.tells (s.refillBut i own) := refillLoop_tells _

theorem refill_tells : s.tells (s.refill i) := refillLoop_tells _

theorem fillPlace_tells : s.tells (s.fillPlace i) := .ite refill_tells promotionCheck_tells

/-! ### Removal and level changes -/

theorem remove_tells {c : Option Reason} : s.tells (s.remove i t src c b) := by
  unfold State.remove
  dsimp only
  split
  · next e p _ _ =>
    have out : s.tells ((s.modFeed i fun f => f.without t src).discard i e c) := modFeed_changes.tells.then discard_tells
    have noticed : ∀ r, s.tells (((s.modFeed i fun f => f.without t src).discard i e c).notifyUnless b i e .removed r) := fun _ =>
      out.then notifyUnless_tells
    cases c with
    | none =>
      cases p with
      | top => exact (out.then replyTop_changes.tells).then promotionCheck_tells
      | admitted => exact out.then refill_tells
      | suspended | held => exact out
    | some r =>
      cases p with
      | top => exact ((noticed r).then replyTop_changes.tells).then promotionCheck_tells
      | admitted => exact (noticed r).then refill_tells
      | suspended | held => exact noticed r
  · exact .refl

theorem release_tells : s.tells (s.release i t src) := by
  unfold State.release
  split
  · exact .ite remove_tells .refl
  · exact .refl

theorem relevelTop_tells {n : Nat} : s.tells (s.relevelTop i e n b) :=
  .ite modEntry_changes.tells
    (.ite (modEntry_changes.tells.then promotionCheck_tells)
      (((modFeed_changes.tells.then setBack_tells).then replyTop_changes.tells).then promotionCheck_tells))

theorem relevelSuspended_tells {n : Nat} : s.tells (s.relevelSuspended i e n b) :=
  .ite (.ite (modFeed_changes.tells.then push_changes.tells)
      (modFeed_changes.tells.then setBack_tells))
    (.ite modEntry_changes.tells (modFeed_changes.tells.then setBack_tells))

theorem relevelHeld_tells {n : Nat} : s.tells (s.relevelHeld i e n b) :=
  .ite (((modFeed_changes.tells.then insertHeld_tells).then modFeed_changes.tells).then push_changes.tells |>.then
      notifyUnless_tells)
    (modFeed_changes.tells.then insertHeld_tells)

theorem relevelMix_tells {p : Place} {n : Nat} : s.tells (s.relevelMix i e p n b) := by
  unfold State.relevelMix
  dsimp only
  split
  · exact .ite (.ite (modFeed_changes.tells.then setBack_tells) modEntry_changes.tells) (modEntry_changes.tells.thenIf refillBut_tells)
  · exact .ite ((modFeed_changes.tells.then admitSeven_tells).then notifyUnless_tells) (modFeed_changes.tells.then insertHeld_tells)

theorem relevel_tells : s.tells (s.relevel i t src b) := by
  unfold State.relevel
  dsimp only
  split
  · refine .ite .refl (.ite remove_tells (.ite relevelMix_tells ?_))
    split
    · exact relevelTop_tells
    · exact relevelSuspended_tells
    · exact relevelHeld_tells
  · exact .refl

/-! ### Arrival, close and move of talk -/

variable {d tag lane : Nat} {m : TalkOpen}

theorem openExisting_tells : s.tells (s.openExisting i t d m e).1 := by
  unfold State.openExisting
  dsimp only
  split
  · exact .refl
  · split
    · exact .refl
    · exact .ite ((modEntry_changes.tells.then relevel_tells).then requestMemo_tells)
        (modEntry_changes.tells.then relevel_tells)

theorem holdNew_tells : s.tells (s.holdNew i t d m).1 := by
  unfold State.holdNew
  dsimp only
  split
  · exact .refl
  · exact (newEntry_changes.tells.then insertHeld_tells).then requestMemo_tells

theorem openNew_tells : s.tells (s.openNew i t d m).1 := by
  unfold State.openNew
  dsimp only
  split
  · exact .refl
  · split
    · split
      · split
        · exact holdNew_tells
        · exact newEntry_changes.tells.then admitSeven_tells
      · split
        · exact holdNew_tells
        · exact newEntry_changes.tells.then enterAdmitted_changes.tells
    · split
      · exact newEntry_changes.tells.then push_changes.tells
      · exact holdNew_tells

theorem openAt_tells {is : List WireItem} : s.tells (State.openAt t m (s, is) i).1 := by
  unfold State.openAt
  dsimp only
  split
  · split
    · exact .refl
    · split
      · exact openExisting_tells.then sync_changes.tells
      · exact openNew_tells.then sync_changes.tells
  · exact .refl

theorem talkOpened_tells : s.tells (s.talkOpened t m) := by
  have h : s.tells ((List.range 6).foldl (State.openAt t m) (s, [])).1 :=
    foldl_keeps (fun r : State × List WireItem => s.tells r.1) (State.openAt t m)
      (fun _ _ hb => hb.then openAt_tells) _ _ .refl
  unfold State.talkOpened
  exact .ite h (h.then offer_tells)

theorem closeAt_tells : s.tells (State.closeAt t src tag s i) := by
  unfold State.closeAt
  split
  · exact .ite ((State.tells.ite (modEntry_changes.tells.then release_tells)
      (modEntry_changes.tells.then relevel_tells)).then sync_changes.tells) .refl
  · exact .refl

theorem talkClosed_tells : s.tells (s.talkClosed t src tag) := .fold (fun _ _ => closeAt_tells) .refl _

theorem expireHeld_tells : s.tells (s.expireHeld i t src) := by
  unfold State.expireHeld
  split
  · exact .ite (remove_tells.then sync_changes.tells) .refl
  · exact .refl

/-! ### Tally, calls and the loss of a peer -/

theorem drop_tells {c : Option Reason} : s.tells (State.drop c i s e) := by
  unfold State.drop
  dsimp only
  split
  · exact (modFeed_changes.tells.then discard_tells).then notify_tells
  · exact modFeed_changes.tells.then discard_tells

theorem afterStep_tells {o : Option Entry} : s.tells (s.afterStep i o) :=
  ((State.tells.ite .refl replyTop_changes.tells).then fillPlace_tells).then sync_changes.tells

theorem onAirStep_tells : s.tells (s.onAirStep i) := (State.tells.fold (fun _ _ => drop_tells) .refl _).then afterStep_tells

theorem dropOnAir_tells {c : TallyCause} : s.tells (s.dropOnAir i t d c) :=
  .ite (.ite (modFeed_changes.tells.then raise_tells) modFeed_changes.tells) .refl

theorem tallyAt_tells : s.tells (s.tallyAt i t d b) :=
  .ite (.ite modFeed_changes.tells
      (.ite (.ite ((modFeed_changes.tells.then onAirStep_tells).then raise_tells)
        modFeed_changes.tells) .refl))
    dropOnAir_tells

theorem tallied_tells : s.tells (s.tallied t d b) := .fold (fun _ _ => .ite tallyAt_tells .refl) .refl _

theorem expireOnAir_tells : s.tells (s.expireOnAir i t d) := .ite dropOnAir_tells .refl

theorem dropCall_tells {k : Nat} {c : CallCause} : s.tells (s.dropCall i t k c) := .ite (modFeed_changes.tells.then raise_tells) .refl

theorem callAt_tells {k kind : Nat} : s.tells (s.callAt t k kind i d) := by
  unfold State.callAt
  dsimp only
  refine State.tells.then (State.tells.then (State.tells.then ?_ modFeed_changes.tells) toneRequest_changes.tells) raise_tells
  split
  · exact .ite dropCall_tells .refl
  · exact .refl

theorem called_tells {k kind : Nat} {ds : List Nat} : s.tells (s.called t k kind ds) :=
  .fold (fun s i => by split; exacts [callAt_tells, .refl]) .refl _

theorem expireCall_tells {k : Nat} : s.tells (s.expireCall i t k) := .ite dropCall_tells .refl

theorem lossEntries_tells {p : Nat} : s.tells (State.lossEntries p s i) := by
  unfold State.lossEntries
  dsimp only
  refine .ite (.ite (State.tells.then ?_ sync_changes.tells) (State.tells.then ?_ afterStep_tells)) .refl
  · exact .fold (fun _ _ => drop_tells) modFeed_changes.tells _
  · exact .fold (fun _ _ => drop_tells) modFeed_changes.tells _

theorem lossRecords_tells {p : Nat} : s.tells (State.lossRecords p s i) :=
  .fold (fun _ _ => dropCall_tells) (.fold (fun _ _ => dropOnAir_tells) .refl _) _

theorem peerLost_tells {p : Nat} : s.tells (s.peerLost p) := .fold (fun _ _ => lossEntries_tells.then lossRecords_tells) .refl _

theorem peerGone_tells {p : Nat} : s.tells (s.peerGone p) :=
  ((State.tells.ite (modPeer_changes.tells.then raise_tells) modPeer_changes.tells).then freeLanesOf_tells).then peerLost_tells

/-! ### The read pass -/

theorem readEntry_tells : s.tells (s.readEntry i e) := by
  unfold State.readEntry
  split
  · split
    · exact .ite ((modEntry_changes.tells.then modChannel_changes.tells).then modEntry_changes.tells)
        (modEntry_changes.tells.then modChannel_changes.tells)
    · exact .ite remove_tells (freeChain_changes.tells.then modEntry_changes.tells)
  · exact .refl

theorem readLoop_tells : ∀ (n : Nat) {s : State} {l : List (Nat × Nat)}, s.tells (s.readLoop n i l)
  | 0, s, l => .refl
  | n + 1, s, l => by
    unfold State.readLoop
    dsimp only
    split
    · exact readEntry_tells.then (readLoop_tells n)
    · exact .refl

theorem readPass_tells : s.tells (s.readPass i) := (readLoop_tells 15).then sync_changes.tells

/-! ### Keys -/

theorem openKey_tells : s.tells (s.openKey n) := by
  unfold State.openKey
  dsimp only
  refine .ite ?_ (modKey_changes.tells.then openPath_tells)
  split
  · exact modKey_changes.tells.then openPath_tells
  · exact raise_tells

theorem closeKey_tells : s.tells (s.closeKey n) := modKey_changes.tells.then closePath_tells

theorem pressMode_tells : s.tells (s.pressMode n) := by
  unfold State.pressMode
  dsimp only
  split
  · exact .ite openKey_tells .refl
  · exact .ite openKey_tells (.ite .refl closeKey_tells)
  · exact .ite openKey_tells (.ite closeKey_tells .refl)

theorem pressCall_tells : s.tells (s.pressCall n) := .ite placeCall_tells raise_tells

theorem press_tells : s.tells (s.press n) := .ite .refl (.ite raise_tells (.ite pressCall_tells pressMode_tells))

theorem releaseAuto_tells : s.tells (s.releaseAuto n) := .ite .refl (.ite modKey_changes.tells closeKey_tells)

theorem releaseKey_tells : s.tells (s.releaseKey n) := by
  unfold State.releaseKey
  dsimp only
  refine .ite .refl ?_
  split
  · exact .ite .refl closeKey_tells
  · exact .refl
  · exact .ite .refl releaseAuto_tells

theorem takeLevel_tells {l : KeyLevel} : s.tells (s.takeLevel n l) := by
  unfold State.takeLevel
  dsimp only
  split
  · exact modKey_changes.tells.then press_tells
  · exact modKey_changes.tells.then releaseKey_tells

theorem setLevel_tells {l : KeyLevel} : s.tells (s.setLevel n l) := .ite .refl takeLevel_tells

theorem debounced_tells : s.tells (s.debounced n) := .ite takeLevel_tells .refl

/-! ### The field bridge -/

theorem writeFieldNeed_tells : s.tells (s.writeFieldNeed n) := writeNeed_tells

theorem fieldEvent_tells {o : ChanState} {c : FieldCause} : s.tells (s.fieldEvent n o c) := .ite raise_tells .refl

theorem closeTalk_tells : s.tells (s.closeTalk n) := .ite .refl (modChan_changes.tells.then closePath_tells)

theorem fill_tells : s.tells (s.fill n) := by
  have filled : s.tells (((s.modChan n fun ch =>
      { ch with state := .playing, offset := 0, last := zeroBlock, resync := false }).fieldEvent n (s.chan n).state .filled).writeFieldNeed
        n) := (modChan_changes.tells.then fieldEvent_tells).then writeFieldNeed_tells
  exact .ite ((filled.then modChan_changes.tells).then openPath_tells) filled

theorem frameFirst_tells {f : HeldFrame} : s.tells (s.frameFirst n f) :=
  (modChan_changes.tells.then fieldEvent_tells).then writeFieldNeed_tells

theorem frameFilling_tells {f : HeldFrame} : s.tells (s.frameFilling n f) :=
  .ite modChan_changes.tells (.ite modChan_changes.tells
    (.ite modChan_changes.tells
      (.ite (modChan_changes.tells.then fill_tells) modChan_changes.tells)))

theorem framePlaying_tells {f : HeldFrame} : s.tells (s.framePlaying n f) :=
  .ite modChan_changes.tells
    (.ite ((modChan_changes.tells.then fieldEvent_tells).then writeFieldNeed_tells)
      (.ite modChan_changes.tells modChan_changes.tells))

theorem frameAt_tells {f : HeldFrame} : s.tells (s.frameAt n f) := by
  unfold State.frameAt
  split
  · exact frameFirst_tells
  · exact frameFirst_tells
  · exact frameFilling_tells
  · exact framePlaying_tells

theorem frameFor_tells {f : FieldFrame} : s.tells (s.frameFor f n) := .ite frameAt_tells .refl

theorem frameArrived_tells {f : FieldFrame} : s.tells (s.frameArrived f) :=
  .ite (.ite (frameFor_tells.then frameFor_tells) modFb_changes.tells) .refl

theorem loseChannel_tells : s.tells (s.loseChannel n) :=
  .ite (((modChan_changes.tells.then fieldEvent_tells).then closeTalk_tells).then writeFieldNeed_tells) .refl

/-! ### The line interface -/

theorem startMark_tells : s.tells (s.startMark n) := modLi_tells

theorem holdoffExpired_tells : s.tells s.holdoffExpired := by
  unfold State.holdoffExpired
  split
  · exact .ite (startMark_tells.then modLi_tells) .refl
  · exact .refl

theorem intervalExpired_tells : s.tells s.intervalExpired := by
  unfold State.intervalExpired
  split
  · exact .ite (startMark_tells.then modLi_tells) .refl
  · exact .refl

theorem enterActive_tells : s.tells (s.enterActive n) := by
  unfold State.enterActive
  dsimp only
  have greeted : ∀ p q r v, s.tells (((((s.modLi fun li =>
      { li with lineState := .active, joinStamp := some (n % 65536), activeCycles := 0, leavingCount := 0 }).modPeer s.number p).modFb
        q).raise r).offer v) := fun _ _ _ _ =>
    (((State.tells.then modLi_tells modPeer_changes.tells).then modFb_changes.tells).then raise_tells).then offer_tells
  exact .ite (greeted _ _ _ _) ((greeted _ _ _ _).then setNeed_tells)

theorem markDone_tells : s.tells s.markDone := by
  unfold State.markDone
  split
  · exact .ite (.then modLi_tells enterActive_tells) modLi_tells
  · exact .refl

theorem markMissed_tells : s.tells s.markMissed := by
  unfold State.markMissed
  split
  · exact modLi_tells id
  · exact .refl

theorem slotMissed_tells {l w : Nat} : s.tells (s.slotMissed l n w) := by
  have h : s.tells ((s.setLane l (.held w 0 0 0 true)).refreshWinner w) :=
    setLane_changes.tells.then refreshWinner_tells
  exact .ite (((h.then laneLost_tells).then modSource_changes.tells).then pick_tells) (h.then modSource_changes.tells)

theorem slotLost_tells : s.tells (s.slotLost n) := by
  unfold State.slotLost
  split
  · dsimp only
    split
    · exact .ite (.then modLi_tells slotMissed_tells) modLi_tells
    · exact modLi_tells
  · exact .refl

/-! ### The message window and lane slots -/

theorem openSlot_tells : s.tells (s.openSlot n) := .ite (passTo_tells.then modLi_tells) .refl

theorem talkOpenSent_tells {m : TalkOpen} {d : Option Withdrawal} : s.tells (s.talkOpenSent m d) := by
  unfold State.talkOpenSent
  dsimp only
  have h : s.tells ((s.openSent m).reportSent m.tag) :=
    openSent_changes.tells.then reportSent_changes.tells
  split
  · exact .ite (h.then closeOpened_tells) h
  · exact h

theorem sentNotice_tells {o : OutMsg} : s.tells (s.sentNotice o) := by
  unfold State.sentNotice
  split
  · exact claimSent_tells
  · exact .ite (.ite retryClose_tells .refl) talkOpenSent_tells
  · exact moveSent_changes.tells
  · exact closeSent_tells
  · exact callSent_changes.tells
  · exact .refl

theorem withdrawn_tells {o : OutMsg} : s.tells (s.withdrawn o) := by
  unfold State.withdrawn
  split
  · split
    · exact .ite setPath_changes.tells .refl
    · exact .refl
  · exact .ite retryClose_tells freePath_tells
  · exact .ite pick_tells .refl
  · exact .refl

theorem slotDone_tells {b : Bool} : s.tells (s.slotDone n b) := .ite modLi_tells .refl

theorem headerTaken_tells {t : Slot} : s.tells (s.headerTaken n t) := .ite .refl (refreshPeer_tells.then headerHeard_tells)

theorem driveSlot_tells : s.tells (s.driveSlot n) := by
  unfold State.driveSlot
  split
  · exact .ite (passTo_tells.then modLi_tells) .refl
  · exact .refl

theorem notePresence_tells {p : Nat} {f : Bool} {st : Nat} : s.tells (State.notePresence n st p f s) := by
  unfold State.notePresence
  dsimp only
  exact ((State.tells.ite peerGone_tells .refl).then modPeer_changes.tells).thenIf raise_tells

/-! ### Due steps -/

theorem presenceFalls_tells : s.tells s.presenceFalls := .ite offer_tells .refl

theorem peerExpired_tells : s.tells (s.peerExpired n) := .ite peerGone_tells .refl

theorem laneExpired_tells : s.tells (s.laneExpired n) := by
  unfold State.laneExpired
  split
  · exact .ite (setLane_changes.tells.then laneFreed_tells) .refl
  · exact .refl

theorem claimWon_tells : s.tells (s.claimWon n) := by
  unfold State.claimWon
  split
  · exact .ite ((setLane_changes.tells.then modSource_changes.tells).then handOver_tells) .refl
  · exact .refl

theorem retireDue_tells : s.tells s.retireDue := .ite retire_tells .refl

theorem refreshDue_tells : s.tells (s.refreshDue n) := .ite announceTally_tells .refl

/-! ### Entries to the other line states -/

theorem leavePath_tells : s.tells (s.leavePath n) := by
  unfold State.leavePath
  split
  · exact .refl
  · split
    · exact freePath_tells
    · exact .ite .refl freePath_tells
    · exact closeOpened_tells
    · exact .ite (setPath_changes.tells.then offer_tells) setPath_changes.tells

theorem leavePaths_tells : s.tells s.leavePaths := (State.tells.fold (fun _ _ => leavePath_tells) .refl _).then modTru_changes.tells

theorem leaveField_tells : s.tells s.leaveField :=
  (((closeTalk_tells.then closeTalk_tells).then modFb_changes.tells).then clearNeed_tells).then clearNeed_tells

theorem beginLeaving_tells : s.tells s.beginLeaving := by
  unfold State.beginLeaving
  dsimp only
  refine ((((State.tells.then ?_ leaveLanes_changes.tells).then leavePaths_tells).then leaveField_tells).then clearNeed_tells).then
    raise_tells
  exact ⟨by simp, [], rfl⟩

theorem enterDead_tells {st : LineState} (online : st ≠ .offline) : s.tells (s.enterDead st n) :=
  ⟨fun offline => absurd offline online, [.lineState s.li.lineState st (some n)], rfl⟩

theorem silence_tells {cause : SilencedCause} : s.tells (s.silence cause) := enterDead_tells nofun

theorem started_tells {c : Configuration} {pins : List KeyLevel} : s.tells (s.started c pins) :=
  ⟨nofun, [.lineState s.li.lineState .listening none], rfl⟩

/-! ### Entry to OFFLINE (R11, R193) -/

/-- The station is in OFFLINE, without a configuration, and LINE-STATE is the one event left. -/
def State.endsOffline (t : State) : Prop :=
  t.li.lineState = .offline ∧ t.cp.config = none ∧ ∃ old, t.cp.events = [.lineState old .offline none]

/-- `t` comes after `s` by events that arrive, or is the OFFLINE that was entered. -/
def State.evolves (s t : State) : Prop := s.tells t ∨ t.endsOffline

theorem State.endsOffline.eventLaw {t : State} (h : t.endsOffline) : EventLaw t := by
  obtain ⟨-, -, old, alone⟩ := h
  rw [eventLaw_iff, alone]
  exact eventsFit_of_lt (by simp)

theorem State.evolves.eventLaw {t : State} (h : s.evolves t) (law : EventLaw s) : EventLaw t :=
  h.elim (fun told => told.eventLaw law) State.endsOffline.eventLaw

theorem State.tells.thenEvolves {t u : State} (h : s.tells t) (h' : t.evolves u) : s.evolves u := h'.imp_left h.then

theorem State.evolves.ite {t u : State} {c : Prop} [Decidable c] (h : s.evolves t) (h' : s.evolves u) :
    s.evolves (if c then t else u) := by
  split <;> assumption

theorem enterOffline_endsOffline : s.enterOffline.endsOffline := ⟨rfl, rfl, s.li.lineState, rfl⟩

theorem endTest_evolves : s.evolves s.endTest := .ite (.inr enterOffline_endsOffline) (.inl .refl)

theorem enterLeaving_evolves : s.evolves s.enterLeaving := beginLeaving_tells.thenEvolves endTest_evolves

theorem leavingOver_evolves : s.evolves s.leavingOver := .ite (.inr enterOffline_endsOffline) (.inl .refl)

/-! ### Due steps of an opening -/

theorem runComplete_tells : s.tells s.runComplete := .ite enterActive_tells .refl

theorem inActive_tells (f : State → State) (h : ∀ s : State, s.tells (f s)) : s.tells (s.inActive f) := .ite (h s) .refl

theorem takeDue_tells {d : Due} (stays : d ≠ .leaving) : s.tells (s.takeDue d) := by
  cases d with
  | debounce => exact debounced_tells
  | presence => exact presenceFalls_tells
  | peer => exact peerExpired_tells
  | lane => exact laneExpired_tells
  | claim => exact claimWon_tells
  | retire => exact retireDue_tells
  | refresh => exact refreshDue_tells
  | defer => exact inActive_tells (State.expireHeld · _ _ _) fun _ => expireHeld_tells
  | onAir => exact inActive_tells (State.expireOnAir · _ _ _) fun _ => expireOnAir_tells
  | callRepeat => exact inActive_tells (State.repeatCall · _ _ _) fun _ => repeatCall_changes.tells
  | callExpiry => exact inActive_tells (State.expireCall · _ _ _) fun _ => expireCall_tells
  | cueTone => exact inActive_tells (State.toneRequest · _ _) fun _ => toneRequest_changes.tells
  | cueZero => exact inActive_tells (State.cueZero · _) fun _ => cueZero_tells
  | tonePhase => exact endPhase_changes.tells
  | hang => exact hangEnd_changes.tells
  | leaving => exact absurd rfl stays
  | fieldLoss => exact inActive_tells (State.loseChannel · _) fun _ => loseChannel_tells
  | runCount => exact runComplete_tells

theorem takeDue_evolves {d : Due} : s.evolves (s.takeDue d) := by
  by_cases leaving : d = .leaving
  · exact leaving ▸ leavingOver_evolves
  · exact .inl (takeDue_tells leaving)

theorem owed_tells {ds : List Due} : s.tells { s with owed := ds } := ⟨id, [], rfl⟩

theorem raiseDue_tells {apart : List DueKind} {d : Due} (stays : d ≠ .leaving := by exact nofun) : s.tells (s.raiseDue apart d) :=
  .ite owed_tells (takeDue_tells stays)

theorem takeOwed_tells {d : Due} (stays : d ≠ .leaving := by exact nofun) : s.tells (s.takeOwed d) :=
  .ite (owed_tells.then (takeDue_tells stays)) .refl

theorem takeTone_tells : s.tells (s.takeTone n) := by
  rcases s.takeTone_cases n with ⟨d, -, tone, taken⟩ | ⟨-, nothing⟩
  · have stays : d ≠ .leaving := by rintro rfl; cases tone
    exact taken ▸ owed_tells.then (takeDue_tells stays)
  · rw [nothing]
    exact .refl

theorem takeZero_tells : s.tells (s.takeZero n) := by
  unfold State.takeZero
  exact .ite (takeTone_tells.then takeOwed_tells) .refl

theorem lossFirst_tells {f : FieldFrame} : s.tells (s.lossFirst f n) := .ite takeOwed_tells .refl

theorem frameComes_tells {f : FieldFrame} : s.tells (s.frameComes f) :=
  .ite (.then (.fold (fun _ _ => lossFirst_tells) .refl _) frameArrived_tells) frameArrived_tells

theorem changesOnly_of_not {u : State} {l : List Piece} {c : Prop} [Decidable c] (unmet : ¬c) :
    s.changesOnly (if c then u else s) l := by
  rw [if_neg unmet]
  exact .refl

/-- In OFFLINE no key is in use, and the line state that most steps ask for is not there; a tone phase and a hang may still end. -/
theorem takeDue_changes_of_offline {d : Due} (offline : s.li.lineState = .offline) (bare : s.cp.config = none) :
    s.changesOnly (s.takeDue d) [.vd, .tcu] := by
  have inactive : s.active = false := by simp [State.active, offline]
  have unhearing : s.hears = false := by simp [State.hears, State.listening, inactive, offline]
  have unused : ∀ k, (s.keyCfg k).fn = 0 := by
    simp [State.keyCfg, State.cfg, bare, Configuration.absent, KeyCfg.absent]
  cases d with
  | debounce => exact changesOnly_of_not (by simp [unused])
  | peer => exact changesOnly_of_not (by simp [unhearing])
  | lane =>
    simp only [State.takeDue, State.laneExpired]
    split
    · exact changesOnly_of_not (by simp [unhearing])
    · exact .refl
  | claim =>
    simp only [State.takeDue, State.claimWon]
    split
    · exact changesOnly_of_not (by simp [inactive])
    · exact .refl
  | tonePhase => exact endPhase_changes.mono (by decide)
  | hang => exact hangEnd_changes.mono (by decide)
  | leaving => exact changesOnly_of_not (by simp [State.leaving, offline])
  | runCount => exact changesOnly_of_not (by simp [State.listening, offline])
  | presence | refresh | retire | defer | onAir | callRepeat | callExpiry | cueTone | cueZero | fieldLoss =>
    exact changesOnly_of_not (by simp [inactive])

theorem State.endsOffline.takeDue {s : State} (h : s.endsOffline) (d : Due) : (s.takeDue d).endsOffline := by
  obtain ⟨offline, bare, old, alone⟩ := h
  have kept := takeDue_changes_of_offline (d := d) offline bare
  have li : (s.takeDue d).li = s.li := kept.2 .li (by decide)
  have cp : (s.takeDue d).cp = s.cp := kept.2 .cp (by decide)
  exact ⟨li ▸ offline, cp ▸ bare, old, cp ▸ alone⟩

theorem settle_evolves : s.evolves s.settle := by
  unfold State.settle
  refine foldl_keeps s.evolves State.takeDue (fun t d h => ?_) _ _ (.inl owed_tells)
  rcases h with told | ended
  · exact told.thenEvolves takeDue_evolves
  · exact .inr (ended.takeDue d)

/-! ### The opening of a cycle (R1) -/

section
variable {apart : List DueKind} {pins : List KeyLevel}

theorem openLine_tells : s.tells s.openLine := modLi_tells

theorem openPresence_tells : s.tells (s.openPresence apart) := .ite raiseDue_tells .refl

theorem openKeyCycle_tells : s.tells (s.openKeyCycle apart pins n) := by
  unfold State.openKeyCycle
  dsimp only
  refine .ite .refl ?_
  split
  · exact .ite (modKey_changes.tells.then modKey_changes.tells)
      (.ite (modKey_changes.tells.then modKey_changes.tells) (modKey_changes.tells.then raiseDue_tells))
  · exact modKey_changes.tells.then setLevel_tells
  · exact modKey_changes.tells

theorem openKeys_tells : s.tells (s.openKeys apart pins) := .fold (fun _ _ => openKeyCycle_tells) .refl _

theorem agePeer_tells : s.tells (s.agePeer apart n) := .ite (.ite modPeer_changes.tells (modPeer_changes.tells.then raiseDue_tells)) .refl

theorem ageLane_tells : s.tells (s.ageLane apart n) := by
  unfold State.ageLane
  split
  · exact .ite setLane_changes.tells (setLane_changes.tells.then raiseDue_tells)
  · exact .ite setLane_changes.tells raiseDue_tells
  · exact .refl

theorem pickAgain_tells : s.tells (s.pickAgain n) := by
  unfold State.pickAgain
  split
  · exact .ite .refl (.ite pick_tells (pick_tells.then laneFreed_tells))
  · exact .refl

theorem openTable_tells : s.tells (s.openTable apart) := by
  have aged : s.tells ((List.range s.laneCount).foldl (State.ageLane apart)
      (((List.range 62).map fun p => p + 1).foldl (State.agePeer apart) s)) :=
    .fold (fun _ _ => ageLane_tells) (.fold (fun _ _ => agePeer_tells) .refl _) _
  exact .ite (.ite (.fold (fun _ _ => pickAgain_tells) aged _) aged) .refl

theorem ageLoss_tells : s.tells (s.ageLoss apart n) := modChan_changes.tells.thenIf raiseDue_tells

theorem openField_tells : s.tells (s.openField apart) :=
  .ite (.fold (fun _ _ => playout_changes.tells) (.fold (fun _ _ => ageLoss_tells) .refl _) _) .refl

theorem ageOutstanding_tells : s.tells (s.ageOutstanding apart) := modTru_changes.tells.thenIf raiseDue_tells

theorem retryMove_tells : s.tells (s.retryMove n) := by
  unfold State.retryMove
  refine .ite ?_ .refl
  split
  · exact offerMove_tells
  · exact .refl

theorem retryReannounce_tells : s.tells (s.retryReannounce n) := .ite reannounce_tells .refl

theorem ageTally_tells : s.tells (s.ageTally apart n) := modTru_changes.tells.thenIf raiseDue_tells

theorem openRequests_tells : s.tells (s.openRequests apart) := by
  unfold State.openRequests
  dsimp only
  refine .ite ?_ .refl
  refine .fold (fun _ _ => ageTally_tells) (State.tells.then ?_ offeringPass_tells) _
  exact .fold (fun _ _ => retryReannounce_tells) (.fold (fun _ _ => retryMove_tells)
    (.fold (fun _ _ => retryClose_tells) ageOutstanding_tells _) _) _

theorem ageHeld_tells : s.tells (s.ageHeld apart n) := .fold (fun _ _ => raiseDue_tells) modFeed_changes.tells _

theorem ageOnAir_tells : s.tells (s.ageOnAir apart n) := .fold (fun _ _ => raiseDue_tells) modFeed_changes.tells _

theorem callDue_tells {r : CallRec} : s.tells (callDue apart n s r) := .ite raiseDue_tells (.ite raiseDue_tells .refl)

theorem ageCalls_tells : s.tells (s.ageCalls apart n) := .fold (fun _ _ => callDue_tells) modFeed_changes.tells _

theorem openArbiter_tells : s.tells (s.openArbiter apart) :=
  .ite (.fold (fun _ _ => (ageHeld_tells.then ageOnAir_tells).then ageCalls_tells) .refl _) .refl

theorem testClock_tells {c i r : Nat} : s.tells (s.testClock apart c i r) := by
  unfold State.testClock
  split
  · exact raiseDue_tells
  · exact .refl

theorem tickClock_tells : s.tells (s.tickClock apart n) := by
  unfold State.tickClock
  split
  · exact (setClock_changes.tells.then testClock_tells).thenIf raiseDue_tells
  · exact .refl

theorem openClocks_tells : s.tells (s.openClocks apart) := .ite (.fold (fun _ _ => tickClock_tells) .refl _) .refl

theorem openSource_tells : s.tells (s.openSource apart n) := evaluate_changes.tells.thenIf raiseDue_tells

theorem openVoices_tells : s.tells (s.openVoices apart) := .fold (fun _ _ => openSource_tells) .refl _

theorem openFeed_tells : s.tells (s.openFeed apart n) := by
  have cleared : s.tells (s.clearPlayed n) := modFeed_changes.tells
  have mixed : s.tells ((if s.active then (s.clearPlayed n).readPass n else s.clearPlayed n).mixFeed n) :=
    (State.tells.ite (cleared.then readPass_tells) cleared).then mixFeed_changes.tells
  exact .ite (mixed.thenIf raiseDue_tells) .refl

theorem openFeeds_tells : s.tells (s.openFeeds apart) := .fold (fun _ _ => openFeed_tells) .refl _

theorem openBlocks_tells : s.tells (s.openBlocks pins apart) :=
  (((((((openPresence_tells.then openKeys_tells).then openTable_tells).then openField_tells).then openRequests_tells).then
    openArbiter_tells).then openClocks_tells).then openVoices_tells).then openFeeds_tells

theorem raiseDue_evolves {d : Due} : s.evolves (s.raiseDue apart d) := .ite (.inl owed_tells) takeDue_evolves

/-- What an opening finds left over may end in OFFLINE, and then the opening does no more (R11). -/
theorem openCycle_evolves : s.evolves (s.openCycle pins apart) := by
  unfold State.openCycle
  dsimp only
  split
  · exact settle_evolves
  · next online =>
    rcases settle_evolves (s := s) with told | ⟨offline, -⟩
    · have opened := (told.then openLine_tells).then (t := s.settle.openLine) (u := s.settle.openLine.openInputs) modMx_changes.tells
      exact .ite (opened.thenEvolves raiseDue_evolves) (.inl (opened.then openBlocks_tells))
    · exact absurd (beq_iff_eq.mpr offline) online

/-! ### Heard marks, messages and slots -/

theorem countMark_tells : s.tells (s.countMark apart) := .ite modLi_tells (.then modLi_tells raiseDue_tells)

theorem goodMarkHeard_tells {m : HeardMark} : s.tells (s.goodMarkHeard m apart) :=
  .ite (enterDead_tells nofun) (.ite (.ite .refl silence_tells) (.ite (refreshPeer_tells.then countMark_tells) refreshPeer_tells))

theorem markHeard_tells {m : HeardMark} : s.tells (s.markHeard m apart) := by
  have dropped : s.tells (if (s.marks && !m.own) = true then s.modLi LineIf.dropDuty else s) := .ite (modLi_tells id) .refl
  exact .ite (.ite (dropped.then goodMarkHeard_tells) (.ite (.then dropped modLi_tells) dropped)) dropped

end

theorem hear_tells {env : Envelope} {m : Message} {refresh listen act : State → State} (refreshed : ∀ s : State, s.tells (refresh s))
    (listened : ∀ s : State, s.tells (listen s)) (acted : ∀ s : State, s.tells (act s)) :
    s.tells (s.hear env m refresh listen act) := by
  rcases s.hear_cases env m refresh listen act with same | ⟨c, -, -, -, -, died⟩ | ⟨-, -, -, -, own⟩ | ⟨-, -, -, -, heard⟩
  · rw [same]
    exact .refl
  · exact died ▸ silence_tells
  · exact own ▸ acted s
  · have noted : s.tells (listen (refresh s)) := (refreshed s).then (listened _)
    exact heard ▸ .ite (noted.then (acted _)) noted

theorem cueHeard_tells {o d x m : Nat} : s.tells (s.cueHeard o d x m) := .ite cueHalted_changes.tells cueTaken_tells

theorem slotHeard_tells {good own : Bool} {t : Slot} : s.tells (s.slotHeard n good own t) := by
  have taken : s.tells (if good = true then s.headerTaken n t else s) := .ite headerTaken_tells .refl
  exact .ite (.ite .refl (.ite silence_tells headerTaken_tells))
    (.ite (.ite silence_tells ((taken.then storeSlot_changes.tells).then capture_tells)) .refl)

theorem messageDone_evolves : s.evolves s.messageDone := by
  unfold State.messageDone
  split
  · have noticed : ∀ o, s.tells (State.sentNotice (s.modLi fun li => { li.unqueue with sentThisCycle := true }) o) := fun o =>
      .then (modLi_tells id) sentNotice_tells
    exact .ite ((noticed _).thenEvolves endTest_evolves) (.inl (noticed _))
  · exact .inl .refl

theorem messageMissed_evolves : s.evolves s.messageMissed := by
  unfold State.messageMissed
  split
  · next o _ _ =>
    have kept : s.tells (if o.drop.isSome = true then (s.modLi LineIf.unqueue).withdrawn o
        else s.modLi fun li => { li with queue := li.queue.map fun x => { x with locked := false }, driving := none }) :=
      .ite (.then (modLi_tells id) withdrawn_tells) modLi_tells
    exact .ite (kept.thenEvolves endTest_evolves) (.inl kept)
  · exact .inl .refl

theorem itemMissed_evolves : s.evolves s.itemMissed := by
  unfold State.itemMissed
  split
  · exact .inl markMissed_tells
  · exact messageMissed_evolves
  · exact .inl slotLost_tells
  · exact .inl .refl

theorem readbackDiffers_evolves : s.evolves s.readbackDiffers :=
  .ite (.inl .refl) (.ite (.inl silence_tells) (.ite itemMissed_evolves (.inl .refl)))

/-! ### Commands of the control port -/

theorem command_evolves {taken bad : Bool} {run : State → State} (ran : s.evolves (run s)) : s.evolves (s.command taken bad run) :=
  .ite (.inl respond_tells) (.ite (.inl respond_tells) (.ite (.inl respond_tells) ran))

theorem offerCommand_tells {m : Message} {after : State → State} (after_tells : ∀ s : State, s.tells (after s)) :
    s.tells (s.offerCommand m after) :=
  .ite ((offer_tells.then (after_tells _)).then respond_tells) respond_tells

theorem startCommand_evolves {block : List Nat} {pins : List KeyLevel} : s.evolves (s.startCommand block pins) := by
  refine .ite (.inl respond_tells) (command_evolves ?_)
  dsimp only
  split
  · exact .inl respond_tells
  · exact .inl (started_tells.then respond_tells)

theorem stopCommand_evolves : s.evolves s.stopCommand :=
  command_evolves (.ite (respond_tells.thenEvolves enterLeaving_evolves) (.inr enterOffline_endsOffline))

theorem keySet_evolves {k level : Nat} : s.evolves (s.keySet k level) := command_evolves (.inl (setLevel_tells.then respond_tells))

theorem ackCall_evolves {i caller key : Nat} : s.evolves (s.ackCall i caller key) :=
  command_evolves (.inl (offerCommand_tells fun _ => modFeed_changes.tells))

theorem tallyOn_evolves {d state : Nat} : s.evolves (s.tallyOn d state) :=
  command_evolves (.ite (.inl respond_tells) (.inl (offerCommand_tells fun _ => modTru_changes.tells)))

theorem tallyOff_evolves {d : Nat} : s.evolves (s.tallyOff d) := command_evolves (.inl (offerCommand_tells fun _ => modTru_changes.tells))

theorem cueStart_evolves {d seconds mode : Nat} : s.evolves (s.cueStart d seconds mode) :=
  command_evolves (.inl (offerCommand_tells fun _ => .refl))

theorem cueStop_evolves {d : Nat} : s.evolves (s.cueStop d) := command_evolves (.inl (offerCommand_tells fun _ => .refl))

theorem discardByCommand_tells : s.tells (s.discardByCommand i e) := by
  have emptied : s.tells ((s.freeChain e.chain).modEntry i e.talker e.source fun e => { e with chain := [] }) :=
    freeChain_changes.tells.then modEntry_changes.tells
  exact (State.tells.ite (emptied.then remove_tells) emptied).then sync_changes.tells

theorem memoDiscard_evolves : s.evolves (s.memoDiscard i t src) := by
  refine command_evolves ?_
  split
  · exact .inl (discardByCommand_tells.then respond_tells)
  · exact .inl respond_tells

theorem answerQuery_tells {inRange : Bool} {record : List QField} : s.tells (s.answerQuery inRange record) :=
  .ite respond_tells respond_tells

theorem clipQuery_tells : s.tells (s.clipQuery n) := .ite (respond_tells.then modMix_changes.tells) respond_tells

theorem readEvent_tells : s.tells s.readEvent := by
  unfold State.readEvent
  split
  · exact respond_tells
  · exact modCp_tells

end

/-! ### Every command -/

section
variable {s t : State} {c : Instr}

theorem exec_evolves (stepped : exec c s = .next t) (notReset : ∀ number org, c ≠ .hardwareReset number org)
    (notRead : c ≠ .eventReadComplete) : s.evolves t := by
  suffices h : ∃ u, exec c s = .next u ∧ s.evolves u by
    obtain ⟨u, reached, evolved⟩ := h
    cases reached.symm.trans stepped
    exact evolved
  cases c with
  | hardwareReset number org => exact absurd rfl (notReset number org)
  | start => exact ⟨_, rfl, startCommand_evolves⟩
  | stop => exact ⟨_, rfl, stopCommand_evolves⟩
  | keySetDown | keySetUp => exact ⟨_, rfl, keySet_evolves⟩
  | callAck => exact ⟨_, rfl, ackCall_evolves⟩
  | tallySetOn => exact ⟨_, rfl, tallyOn_evolves⟩
  | tallySetOff => exact ⟨_, rfl, tallyOff_evolves⟩
  | cueStart => exact ⟨_, rfl, cueStart_evolves⟩
  | cueStop => exact ⟨_, rfl, cueStop_evolves⟩
  | memoDiscard => exact ⟨_, rfl, memoDiscard_evolves⟩
  | queryLine | queryPeer | queryLane | querySource | queryKey | queryPath | queryFeed | queryMemo | queryField | queryCue =>
    exact ⟨_, rfl, .inl answerQuery_tells⟩
  | queryClip => exact ⟨_, rfl, .inl clipQuery_tells⟩
  | eventRead => exact ⟨_, rfl, .inl readEvent_tells⟩
  | eventReadComplete => exact absurd rfl notRead
  | unknownCommand => exact ⟨_, rfl, .inl respond_tells⟩
  | transactionAbort => exact ⟨_, rfl, .inl modCp_tells⟩
  | cycleOpening => exact ⟨_, rfl, openCycle_evolves⟩
  | markReceived => exact ⟨_, rfl, .inl markHeard_tells⟩
  | holdoffExpiry => exact ⟨_, rfl, .inl holdoffExpired_tells⟩
  | markIntervalExpiry => exact ⟨_, rfl, .inl intervalExpired_tells⟩
  | markSent => exact ⟨_, rfl, .inl markDone_tells⟩
  | markLost => exact ⟨_, rfl, .inl markMissed_tells⟩
  | readbackMismatch => exact ⟨_, rfl, readbackDiffers_evolves⟩
  | messageSlot => exact ⟨_, rfl, .inl openSlot_tells⟩
  | messageSent => exact ⟨_, rfl, messageDone_evolves⟩
  | messageLost => exact ⟨_, rfl, messageMissed_evolves⟩
  | presenceReceived =>
    exact ⟨_, rfl, .inl (hear_tells (fun _ => notePresence_tells) (fun _ => .refl) fun _ => .ite reannounceAll_tells .refl)⟩
  | laneClaimReceived =>
    exact ⟨_, rfl, .inl (hear_tells (fun _ => refreshPeer_tells) (fun _ => claimHeard_tells) fun _ => .refl)⟩
  | talkOpenReceived => exact ⟨_, rfl, .inl (hear_tells (fun _ => refreshPeer_tells) (fun _ => .refl) fun _ => talkOpened_tells)⟩
  | talkMoveReceived =>
    exact ⟨_, rfl, .inl (hear_tells (fun _ => refreshPeer_tells) (fun _ => .refl) fun _ => talkMoved_changes.tells)⟩
  | talkCloseReceived => exact ⟨_, rfl, .inl (hear_tells (fun _ => refreshPeer_tells) (fun _ => .refl) fun _ => talkClosed_tells)⟩
  | answerReceived =>
    exact ⟨_, rfl, .inl (hear_tells (fun _ => refreshPeer_tells) (fun _ => .refl) fun _ => .ite answerHeard_tells .refl)⟩
  | feedNoticeReceived =>
    exact ⟨_, rfl, .inl (hear_tells (fun _ => refreshPeer_tells) (fun _ => .refl) fun _ => .ite noticeHeard_tells .refl)⟩
  | callReceived => exact ⟨_, rfl, .inl (hear_tells (fun _ => refreshPeer_tells) (fun _ => .refl) fun _ => called_tells)⟩
  | callAckReceived =>
    exact ⟨_, rfl, .inl (hear_tells (fun _ => refreshPeer_tells) (fun _ => .refl) fun _ => .ite ackHeard_tells .refl)⟩
  | tallyReceived => exact ⟨_, rfl, .inl (hear_tells (fun _ => refreshPeer_tells) (fun _ => .refl) fun _ => tallied_tells)⟩
  | cueReceived => exact ⟨_, rfl, .inl (hear_tells (fun _ => refreshPeer_tells) (fun _ => .refl) fun _ => cueHeard_tells)⟩
  | cueStopReceived =>
    exact ⟨_, rfl, .inl (hear_tells (fun _ => refreshPeer_tells) (fun _ => .refl) fun _ => cueHalted_changes.tells)⟩
  | laneSlotTransmit => exact ⟨_, rfl, .inl driveSlot_tells⟩
  | laneSlotReceived => exact ⟨_, rfl, .inl (.ite (slotDone_tells.then slotHeard_tells) .refl)⟩
  | slotHeaderLost => exact ⟨_, rfl, .inl slotLost_tells⟩
  | runCountComplete | debounceComplete | presenceDue | peerAgingAbsent | laneAgeExpiry | claimWindowEnd | outstandingEntryRetire
  | tallyRefresh | deferExpiry | onAirExpiry | callRepeat | callExpiry | tonePhaseEnd | hangExpiry | fieldLoss =>
    exact ⟨_, rfl, .inl takeOwed_tells⟩
  | cueToneRequest => exact ⟨_, rfl, .inl takeTone_tells⟩
  | cueClockZero => exact ⟨_, rfl, .inl takeZero_tells⟩
  | leavingTimeout => exact ⟨_, rfl, .ite (owed_tells.thenEvolves takeDue_evolves) (.inl .refl)⟩
  | fieldFrameArrival => exact ⟨_, rfl, .inl frameComes_tells⟩
  | fieldFrameSent => exact ⟨_, rfl, .inl modFb_changes.tells⟩
  | outputSampleDue => exact ⟨_, rfl, .inl takeOutputs_changes.tells⟩
  | audioInputSampled => exact ⟨_, rfl, .inl ⟨id, [], rfl⟩⟩

theorem readDone_lineState (s : State) : s.readDone.li.lineState = s.li.lineState := by
  unfold State.readDone
  split <;> rfl

theorem readDone_eventLaw (law : EventLaw s) : EventLaw s.readDone := by
  unfold State.readDone
  split
  · exact EventsFit.tail law
  · exact law

/-- Beside what evolves, EVENT_READ_COMPLETE takes the head off the queue, and HARDWARE_RESET empties it. -/
theorem exec_eventLaw (stepped : exec c s = .next t) (law : EventLaw s) : EventLaw t := by
  by_cases reset : ∃ number org, c = .hardwareReset number org
  · obtain ⟨number, org, rfl⟩ := reset
    cases stepped
    exact eventsFit_of_lt (by decide : ([] : List Event).length < 32)
  by_cases read : c = .eventReadComplete
  · subst read
    cases stepped
    exact readDone_eventLaw law
  · exact (exec_evolves stepped (fun number org same => reset ⟨number, org, same⟩) read).eventLaw law

theorem step_eventLaw (stepped : step s = .next t) (law : EventLaw s) : EventLaw t := by
  unfold step at stepped
  split at stepped
  · cases stepped
    exact law
  · next c rest _ => exact exec_eventLaw stepped law

theorem exec_endsOffline (stepped : exec c s = .next t) (online : s.li.lineState ≠ .offline) (offline : t.li.lineState = .offline)
    (notReset : ∀ number org, c ≠ .hardwareReset number org) : t.endsOffline := by
  by_cases read : c = .eventReadComplete
  · subst read
    cases stepped
    exact absurd ((readDone_lineState s).symm.trans offline) online
  · rcases exec_evolves stepped notReset read with ⟨stays, -⟩ | ended
    · exact absurd (stays offline) online
    · exact ended

end

/-- Settles O48: every step lets events arrive, takes the head off, or empties the queue, and an entry to OFFLINE is the last that a command
does to it. -/
theorem eventQueueLaw : Obligations.EventQueueLaw := by
  refine ⟨fun s t law stepped => step_eventLaw stepped law, fun s e => ⟨?_, fun older n queue full => ?_, ?_⟩,
    fun c s t stepped online offline notReset => ?_⟩
  · exact appendEvent_of_room e
  · rw [queue] at full
    rw [State.raise_cp, queue]
    exact appendEvent_of_overflow e n full
  · exact appendEvent_of_last_place e
  · obtain ⟨-, -, alone⟩ := exec_endsOffline stepped online offline notReset
    exact alone

end Sys2Proof.Machine
